-- ==== Sys2Proof/Word.lean ====
section
/-! DEFINITION. The two word types of the block (00_scope.md R6, R9): 8-bit bytes and 16-bit words. -/

namespace Sys2Proof

/-- An 8-bit quantity, `u8` of R9: a register half, a memory byte, an immediate byte. -/
abbrev Byte := BitVec 8

/-- A 16-bit quantity, `u16` of R9: a register pair, PC, SP, an address. -/
abbrev Word := BitVec 16

/-- A shade number 0..3 given to the display sink (10_state.md R38). -/
abbrev Shade := BitVec 2

end Sys2Proof
end

