-- ==== Sys2Proof/Syntax.lean ====
section
/-! DEFINITION. The instruction syntax: the operand selectors of 30_encoding.md R124 to R131 and one constructor of
`Instr` per row of opcode_table.json, in the table's order. A selector code that names no register (code 6 of `r8`, the
byte at HL) has no constructor here: the `(HL)` forms are instructions of their own, as in the table. -/

namespace Sys2Proof

/-- An 8-bit register that an `r8` selector can name (R124); code 6, the byte at HL, is no register. -/
inductive R8 where
  | b | c | d | e | h | l | a
  deriving DecidableEq, Repr

/-- A pair that an `r16` selector can name (R125). -/
inductive R16 where
  | bc | de | hl | sp
  deriving DecidableEq, Repr

/-- A pair that an `r16stk` selector can name (R126). -/
inductive R16Stk where
  | bc | de | hl | af
  deriving DecidableEq, Repr

/-- A condition code (R130). -/
inductive Cond where
  | nz | z | nc | c
  deriving DecidableEq, Repr

/-- The instructions. -/
inductive Instr where
  /-- `NOP`, 46_misc_control.md R340. -/
  | nop
  /-- `STOP` with its ignored pad byte, 46_misc_control.md R342, 30_encoding.md R139. -/
  | stop (pad : Byte)
  /-- `HALT`, 46_misc_control.md R341. -/
  | halt
  /-- `DI`, 46_misc_control.md R343. -/
  | di
  /-- `EI`, 46_misc_control.md R344. -/
  | ei
  /-- `LD r,r'`, 43_loads.md R281. -/
  | ldRR (dst src : R8)
  /-- `LD r,n8`, 43_loads.md R282. -/
  | ldRN (dst : R8) (n8 : Byte)
  /-- `LD r,(HL)`, 43_loads.md R283. -/
  | ldRM (dst : R8)
  /-- `LD (HL),r`, 43_loads.md R284. -/
  | ldMR (src : R8)
  /-- `LD (HL),n8`, 43_loads.md R285. -/
  | ldMN (n8 : Byte)
  /-- `LD A,(BC)`, 43_loads.md R286. -/
  | ldABc
  /-- `LD A,(DE)`, 43_loads.md R287. -/
  | ldADe
  /-- `LD (BC),A`, 43_loads.md R288. -/
  | ldBcA
  /-- `LD (DE),A`, 43_loads.md R289. -/
  | ldDeA
  /-- `LD A,(a16)`, 43_loads.md R290. -/
  | ldAAbs (a16 : Word)
  /-- `LD (a16),A`, 43_loads.md R291. -/
  | ldAbsA (a16 : Word)
  /-- `LDH A,(a8)`, 43_loads.md R292. -/
  | ldhAImm (a8 : Byte)
  /-- `LDH (a8),A`, 43_loads.md R293. -/
  | ldhImmA (a8 : Byte)
  /-- `LDH A,(C)`, 43_loads.md R294. -/
  | ldhAC
  /-- `LDH (C),A`, 43_loads.md R295. -/
  | ldhCA
  /-- `LD (HL+),A`, 43_loads.md R296. -/
  | ldHlIncA
  /-- `LD (HL-),A`, 43_loads.md R297. -/
  | ldHlDecA
  /-- `LD A,(HL+)`, 43_loads.md R298. -/
  | ldAHlInc
  /-- `LD A,(HL-)`, 43_loads.md R299. -/
  | ldAHlDec
  /-- `LD rr,n16`, 43_loads.md R300. -/
  | ldRrNn (rr : R16) (n16 : Word)
  /-- `LD (a16),SP`, 43_loads.md R301. -/
  | ldAbsSp (a16 : Word)
  /-- `LD SP,HL`, 43_loads.md R302. -/
  | ldSpHl
  /-- `PUSH rr`, 44_stack.md R321. -/
  | push (rr : R16Stk)
  /-- `POP rr`, 44_stack.md R322. -/
  | pop (rr : R16Stk)
  /-- `ADD A,r`, 40_arithmetic.md R164. -/
  | addR (src : R8)
  /-- `ADD A,(HL)`, 40_arithmetic.md R165. -/
  | addM
  /-- `ADD A,n8`, 40_arithmetic.md R166. -/
  | addN (n8 : Byte)
  /-- `ADC A,r`, 40_arithmetic.md R167. -/
  | adcR (src : R8)
  /-- `ADC A,(HL)`, 40_arithmetic.md R168. -/
  | adcM
  /-- `ADC A,n8`, 40_arithmetic.md R169. -/
  | adcN (n8 : Byte)
  /-- `SUB r`, 40_arithmetic.md R170. -/
  | subR (src : R8)
  /-- `SUB (HL)`, 40_arithmetic.md R171. -/
  | subM
  /-- `SUB n8`, 40_arithmetic.md R172. -/
  | subN (n8 : Byte)
  /-- `SBC A,r`, 40_arithmetic.md R173. -/
  | sbcR (src : R8)
  /-- `SBC A,(HL)`, 40_arithmetic.md R174. -/
  | sbcM
  /-- `SBC A,n8`, 40_arithmetic.md R175. -/
  | sbcN (n8 : Byte)
  /-- `AND r`, 40_arithmetic.md R176. -/
  | andR (src : R8)
  /-- `AND (HL)`, 40_arithmetic.md R177. -/
  | andM
  /-- `AND n8`, 40_arithmetic.md R178. -/
  | andN (n8 : Byte)
  /-- `XOR r`, 40_arithmetic.md R179. -/
  | xorR (src : R8)
  /-- `XOR (HL)`, 40_arithmetic.md R180. -/
  | xorM
  /-- `XOR n8`, 40_arithmetic.md R181. -/
  | xorN (n8 : Byte)
  /-- `OR r`, 40_arithmetic.md R182. -/
  | orR (src : R8)
  /-- `OR (HL)`, 40_arithmetic.md R183. -/
  | orM
  /-- `OR n8`, 40_arithmetic.md R184. -/
  | orN (n8 : Byte)
  /-- `CP r`, 40_arithmetic.md R185. -/
  | cpR (src : R8)
  /-- `CP (HL)`, 40_arithmetic.md R186. -/
  | cpM
  /-- `CP n8`, 40_arithmetic.md R187. -/
  | cpN (n8 : Byte)
  /-- `INC r`, 40_arithmetic.md R188. -/
  | incR (dst : R8)
  /-- `INC (HL)`, 40_arithmetic.md R189. -/
  | incM
  /-- `DEC r`, 40_arithmetic.md R190. -/
  | decR (dst : R8)
  /-- `DEC (HL)`, 40_arithmetic.md R191. -/
  | decM
  /-- `DAA`, 40_arithmetic.md R192. -/
  | daa
  /-- `CPL`, 40_arithmetic.md R193. -/
  | cpl
  /-- `SCF`, 40_arithmetic.md R194. -/
  | scf
  /-- `CCF`, 40_arithmetic.md R195. -/
  | ccf
  /-- `ADD HL,rr`, 45_arith16.md R330. -/
  | addHlRr (rr : R16)
  /-- `INC rr`, 45_arith16.md R331. -/
  | incRr (rr : R16)
  /-- `DEC rr`, 45_arith16.md R332. -/
  | decRr (rr : R16)
  /-- `ADD SP,e8` with its raw operand byte, 45_arith16.md R333. -/
  | addSpE (e8 : Byte)
  /-- `LD HL,SP+e8` with its raw operand byte, 45_arith16.md R334. -/
  | ldHlSpE (e8 : Byte)
  /-- `RLCA`, 41_bit_manipulation.md R211. -/
  | rlca
  /-- `RRCA`, 41_bit_manipulation.md R212. -/
  | rrca
  /-- `RLA`, 41_bit_manipulation.md R213. -/
  | rla
  /-- `RRA`, 41_bit_manipulation.md R214. -/
  | rra
  /-- `JP a16`, 42_jumps.md R251. -/
  | jp (a16 : Word)
  /-- `JP cc,a16`, 42_jumps.md R252. -/
  | jpCc (cc : Cond) (a16 : Word)
  /-- `JP HL`, 42_jumps.md R253. -/
  | jpHl
  /-- `JR e8` with its raw operand byte, 42_jumps.md R254. -/
  | jr (e8 : Byte)
  /-- `JR cc,e8` with its raw operand byte, 42_jumps.md R255. -/
  | jrCc (cc : Cond) (e8 : Byte)
  /-- `CALL a16`, 42_jumps.md R256. -/
  | call (a16 : Word)
  /-- `CALL cc,a16`, 42_jumps.md R257. -/
  | callCc (cc : Cond) (a16 : Word)
  /-- `RET`, 42_jumps.md R258. -/
  | ret
  /-- `RET cc`, 42_jumps.md R259. -/
  | retCc (cc : Cond)
  /-- `RETI`, 42_jumps.md R260. -/
  | reti
  /-- `RST n`, target 8 * n, 42_jumps.md R261. -/
  | rst (n : BitVec 3)
  /-- the undefined byte 0xD3, 60_exceptions.md R362, 30_encoding.md R134. -/
  | illegalD3
  /-- the undefined byte 0xDB, 60_exceptions.md R362, 30_encoding.md R134. -/
  | illegalDB
  /-- the undefined byte 0xDD, 60_exceptions.md R362, 30_encoding.md R134. -/
  | illegalDD
  /-- the undefined byte 0xE3, 60_exceptions.md R362, 30_encoding.md R134. -/
  | illegalE3
  /-- the undefined byte 0xE4, 60_exceptions.md R362, 30_encoding.md R134. -/
  | illegalE4
  /-- the undefined byte 0xEB, 60_exceptions.md R362, 30_encoding.md R134. -/
  | illegalEB
  /-- the undefined byte 0xEC, 60_exceptions.md R362, 30_encoding.md R134. -/
  | illegalEC
  /-- the undefined byte 0xED, 60_exceptions.md R362, 30_encoding.md R134. -/
  | illegalED
  /-- the undefined byte 0xF4, 60_exceptions.md R362, 30_encoding.md R134. -/
  | illegalF4
  /-- the undefined byte 0xFC, 60_exceptions.md R362, 30_encoding.md R134. -/
  | illegalFC
  /-- the undefined byte 0xFD, 60_exceptions.md R362, 30_encoding.md R134. -/
  | illegalFD
  /-- `PREFIX CB` and its second byte, not yet decoded: the first-page category of 0xCB, 46_misc_control.md R345 (log 5). -/
  | prefixCB (second : Byte)
  /-- `RLC r`, 41_bit_manipulation.md R215. -/
  | rlcR (dst : R8)
  /-- `RLC (HL)`, 41_bit_manipulation.md R216. -/
  | rlcM
  /-- `RRC r`, 41_bit_manipulation.md R217. -/
  | rrcR (dst : R8)
  /-- `RRC (HL)`, 41_bit_manipulation.md R218. -/
  | rrcM
  /-- `RL r`, 41_bit_manipulation.md R219. -/
  | rlR (dst : R8)
  /-- `RL (HL)`, 41_bit_manipulation.md R220. -/
  | rlM
  /-- `RR r`, 41_bit_manipulation.md R221. -/
  | rrR (dst : R8)
  /-- `RR (HL)`, 41_bit_manipulation.md R222. -/
  | rrM
  /-- `SLA r`, 41_bit_manipulation.md R223. -/
  | slaR (dst : R8)
  /-- `SLA (HL)`, 41_bit_manipulation.md R224. -/
  | slaM
  /-- `SRA r`, 41_bit_manipulation.md R225. -/
  | sraR (dst : R8)
  /-- `SRA (HL)`, 41_bit_manipulation.md R226. -/
  | sraM
  /-- `SWAP r`, 41_bit_manipulation.md R227. -/
  | swapR (dst : R8)
  /-- `SWAP (HL)`, 41_bit_manipulation.md R228. -/
  | swapM
  /-- `SRL r`, 41_bit_manipulation.md R229. -/
  | srlR (dst : R8)
  /-- `SRL (HL)`, 41_bit_manipulation.md R230. -/
  | srlM
  /-- `BIT b,r`, 41_bit_manipulation.md R231. -/
  | bitR (bit : BitVec 3) (reg : R8)
  /-- `BIT b,(HL)`, 41_bit_manipulation.md R232. -/
  | bitM (bit : BitVec 3)
  /-- `RES b,r`, 41_bit_manipulation.md R233. -/
  | resR (bit : BitVec 3) (reg : R8)
  /-- `RES b,(HL)`, 41_bit_manipulation.md R234. -/
  | resM (bit : BitVec 3)
  /-- `SET b,r`, 41_bit_manipulation.md R235. -/
  | setR (bit : BitVec 3) (reg : R8)
  /-- `SET b,(HL)`, 41_bit_manipulation.md R236. -/
  | setM (bit : BitVec 3)
  deriving DecidableEq, Repr

/-- The operation codes of the second page's rotate and shift group (R131). -/
inductive ShiftOp where
  | rlc | rrc | rl | rr | sla | sra | swap | srl
  deriving DecidableEq, Repr

/-- The second page as its grid (30_encoding.md R133): a group, an operation code or bit index, and a register or the
byte at HL. -/
inductive CbOp where
  | shiftR (op : ShiftOp) (reg : R8)
  | shiftM (op : ShiftOp)
  | bitR (bit : BitVec 3) (reg : R8)
  | bitM (bit : BitVec 3)
  | resR (bit : BitVec 3) (reg : R8)
  | resM (bit : BitVec 3)
  | setR (bit : BitVec 3) (reg : R8)
  | setM (bit : BitVec 3)
  deriving DecidableEq, Repr

end Sys2Proof
end

