-- ==== Sys2Proof/WellFormed.lean ====
section
/-! DEFINITION. Well-formedness of instructions. The types of `Syntax.lean` leave one check: the prefix byte is no
instruction by itself (opcode_table.json, row PREFIX_CB; 46_misc_control.md R345). Every register selector, condition,
bit index and immediate of the other constructors is legal at every value of its type (30_encoding.md R124 to R131). -/

namespace Sys2Proof

/-- The instruction is one the decoder can give: any but the bare `PREFIX CB`, whose two bytes are one second-page
instruction (R345: "Prefix and second byte form one instruction and one Step"). -/
def Instr.wellFormed : Instr → Bool
  | .prefixCB _ => false
  | _ => true

end Sys2Proof
end

