-- ==== Sys2Proof/Decode.lean ====
section
/-! DEFINITION. The decoder and, after it, the encoder (30_encoding.md). The decoder is total on any bytes: every first
byte selects a row of the opcode table (R138), the eleven undefined bytes of R134 included, whose instructions raise the
fault of 60_exceptions.md R362; only a list too short for its instruction is rejected, by name. Laws/Decode.lean proves that it
chooses the row of opcode_table.json on every byte of both pages. -/

namespace Sys2Proof

/-! ### Byte order and fields -/

/-- The low byte `w[7:0]` (00_scope.md R8). -/
def loByte (w : Word) : Byte := w.extractLsb' 0 8

/-- The high byte `w[15:8]`. -/
def hiByte (w : Word) : Byte := w.extractLsb' 8 8

/-- The 16-bit value with the given halves; operands and the stack keep the low byte at the lower address (20_memory.md
R89, 30_encoding.md R128). -/
def wordOf (hi lo : Byte) : Word := hi ++ lo

/-- Bits 7:6 of an opcode byte, the major group (R121). -/
def opGroup (op : Byte) : BitVec 2 := op.extractLsb' 6 2

/-- Bits 5:3: a destination `r8` code, a bit index, an operation code or an RST index (R121, R131). -/
def opY (op : Byte) : BitVec 3 := op.extractLsb' 3 3

/-- Bits 2:0: a source `r8` code (R121). -/
def opZ (op : Byte) : BitVec 3 := op.extractLsb' 0 3

/-- Bits 5:4: an `r16` or `r16stk` code (R121). -/
def opPair (op : Byte) : BitVec 2 := op.extractLsb' 4 2

/-- Bits 4:3: a condition code (R121). -/
def opCond (op : Byte) : BitVec 2 := op.extractLsb' 3 2

/-! ### Selector tables (R124 to R126, R130) -/

/-- The register an `r8` code names; none for code 6, the byte at HL (R124). -/
def R8.ofCode (k : BitVec 3) : Option R8 :=
  match k.toNat with
  | 0 => some .b
  | 1 => some .c
  | 2 => some .d
  | 3 => some .e
  | 4 => some .h
  | 5 => some .l
  | 6 => none
  | _ => some .a

/-- The `r8` code of a register (R124). -/
def R8.code : R8 → BitVec 3
  | .b => 0
  | .c => 1
  | .d => 2
  | .e => 3
  | .h => 4
  | .l => 5
  | .a => 7

/-- The pair an `r16` code names (R125). -/
def R16.ofCode (k : BitVec 2) : R16 :=
  match k.toNat with
  | 0 => .bc
  | 1 => .de
  | 2 => .hl
  | _ => .sp

/-- The `r16` code of a pair (R125). -/
def R16.code : R16 → BitVec 2
  | .bc => 0
  | .de => 1
  | .hl => 2
  | .sp => 3

/-- The pair an `r16stk` code names (R126). -/
def R16Stk.ofCode (k : BitVec 2) : R16Stk :=
  match k.toNat with
  | 0 => .bc
  | 1 => .de
  | 2 => .hl
  | _ => .af

/-- The `r16stk` code of a pair (R126). -/
def R16Stk.code : R16Stk → BitVec 2
  | .bc => 0
  | .de => 1
  | .hl => 2
  | .af => 3

/-- The condition a `cc` code names (R130). -/
def Cond.ofCode (k : BitVec 2) : Cond :=
  match k.toNat with
  | 0 => .nz
  | 1 => .z
  | 2 => .nc
  | _ => .c

/-- The `cc` code of a condition (R130). -/
def Cond.code : Cond → BitVec 2
  | .nz => 0
  | .z => 1
  | .nc => 2
  | .c => 3

/-- The operation a second-page rotate and shift code names (R131). -/
def ShiftOp.ofCode (k : BitVec 3) : ShiftOp :=
  match k.toNat with
  | 0 => .rlc
  | 1 => .rrc
  | 2 => .rl
  | 3 => .rr
  | 4 => .sla
  | 5 => .sra
  | 6 => .swap
  | _ => .srl

/-! ### The second page (R133) -/

/-- The second page's grid: every one of the 256 bytes is defined (R133). -/
def decodeCb (op : Byte) : CbOp :=
  match (opGroup op).toNat, R8.ofCode (opZ op) with
  | 0, some r => .shiftR (.ofCode (opY op)) r
  | 0, none => .shiftM (.ofCode (opY op))
  | 1, some r => .bitR (opY op) r
  | 1, none => .bitM (opY op)
  | 2, some r => .resR (opY op) r
  | 2, none => .resM (opY op)
  | _, some r => .setR (opY op) r
  | _, none => .setM (opY op)

/-- The instruction of a place of the second page's grid. -/
def CbOp.toInstr : CbOp → Instr
  | .shiftR .rlc r => .rlcR r
  | .shiftM .rlc => .rlcM
  | .shiftR .rrc r => .rrcR r
  | .shiftM .rrc => .rrcM
  | .shiftR .rl r => .rlR r
  | .shiftM .rl => .rlM
  | .shiftR .rr r => .rrR r
  | .shiftM .rr => .rrM
  | .shiftR .sla r => .slaR r
  | .shiftM .sla => .slaM
  | .shiftR .sra r => .sraR r
  | .shiftM .sra => .sraM
  | .shiftR .swap r => .swapR r
  | .shiftM .swap => .swapM
  | .shiftR .srl r => .srlR r
  | .shiftM .srl => .srlM
  | .bitR n r => .bitR n r
  | .bitM n => .bitM n
  | .resR n r => .resR n r
  | .resM n => .resM n
  | .setR n r => .setR n r
  | .setM n => .setM n

/-! ### The first page (R132) -/

/-- The register form of an ALU operation code (R131, group `10xxxaaa`). -/
def aluR (k : BitVec 3) (r : R8) : Instr :=
  match k.toNat with
  | 0 => .addR r
  | 1 => .adcR r
  | 2 => .subR r
  | 3 => .sbcR r
  | 4 => .andR r
  | 5 => .xorR r
  | 6 => .orR r
  | _ => .cpR r

/-- The `(HL)` form of an ALU operation code (R131). -/
def aluM (k : BitVec 3) : Instr :=
  match k.toNat with
  | 0 => .addM
  | 1 => .adcM
  | 2 => .subM
  | 3 => .sbcM
  | 4 => .andM
  | 5 => .xorM
  | 6 => .orM
  | _ => .cpM

/-- The immediate form of an ALU operation code (R131, group `11xxx110`). -/
def aluN (k : BitVec 3) (n8 : Byte) : Instr :=
  match k.toNat with
  | 0 => .addN n8
  | 1 => .adcN n8
  | 2 => .subN n8
  | 3 => .sbcN n8
  | 4 => .andN n8
  | 5 => .xorN n8
  | 6 => .orN n8
  | _ => .cpN n8

/-- Group 0 of the map R132, rows 0x to 3x. `n1` and `n2` are the two bytes after the opcode. -/
def decodeGroup0 (op n1 n2 : Byte) : Instr :=
  match (opZ op).toNat, (opY op).toNat with
  | 0, 0 => .nop
  | 0, 1 => .ldAbsSp (wordOf n2 n1)
  | 0, 2 => .stop n1
  | 0, 3 => .jr n1
  | 0, _ => .jrCc (.ofCode (opCond op)) n1
  | 1, y => if y % 2 = 0 then .ldRrNn (.ofCode (opPair op)) (wordOf n2 n1) else .addHlRr (.ofCode (opPair op))
  | 2, 0 => .ldBcA
  | 2, 1 => .ldABc
  | 2, 2 => .ldDeA
  | 2, 3 => .ldADe
  | 2, 4 => .ldHlIncA
  | 2, 5 => .ldAHlInc
  | 2, 6 => .ldHlDecA
  | 2, _ => .ldAHlDec
  | 3, y => if y % 2 = 0 then .incRr (.ofCode (opPair op)) else .decRr (.ofCode (opPair op))
  | 4, _ => ((R8.ofCode (opY op)).map .incR).getD .incM
  | 5, _ => ((R8.ofCode (opY op)).map .decR).getD .decM
  | 6, _ => ((R8.ofCode (opY op)).map (.ldRN · n1)).getD (.ldMN n1)
  | _, 0 => .rlca
  | _, 1 => .rrca
  | _, 2 => .rla
  | _, 3 => .rra
  | _, 4 => .daa
  | _, 5 => .cpl
  | _, 6 => .scf
  | _, _ => .ccf

/-- Group 1 of the map R132, rows 4x to 7x: the loads, with HALT at `a = b = 6` (46_misc_control.md R341). -/
def decodeGroup1 (op : Byte) : Instr :=
  match R8.ofCode (opY op), R8.ofCode (opZ op) with
  | some dst, some src => .ldRR dst src
  | some dst, none => .ldRM dst
  | none, some src => .ldMR src
  | none, none => .halt

/-- Group 2 of the map R132, rows 8x to Bx: the ALU forms on a register or the byte at HL. -/
def decodeGroup2 (op : Byte) : Instr :=
  match R8.ofCode (opZ op) with
  | some r => aluR (opY op) r
  | none => aluM (opY op)

/-- Group 3 of the map R132, rows Cx to Fx, with the eleven undefined bytes of R134 and the prefix of R135. -/
def decodeGroup3 (op n1 n2 : Byte) : Instr :=
  match (opZ op).toNat, (opY op).toNat with
  | 0, 4 => .ldhImmA n1
  | 0, 5 => .addSpE n1
  | 0, 6 => .ldhAImm n1
  | 0, 7 => .ldHlSpE n1
  | 0, _ => .retCc (.ofCode (opCond op))
  | 1, 1 => .ret
  | 1, 3 => .reti
  | 1, 5 => .jpHl
  | 1, 7 => .ldSpHl
  | 1, _ => .pop (.ofCode (opPair op))
  | 2, 4 => .ldhCA
  | 2, 5 => .ldAbsA (wordOf n2 n1)
  | 2, 6 => .ldhAC
  | 2, 7 => .ldAAbs (wordOf n2 n1)
  | 2, _ => .jpCc (.ofCode (opCond op)) (wordOf n2 n1)
  | 3, 0 => .jp (wordOf n2 n1)
  | 3, 1 => .prefixCB n1
  | 3, 2 => .illegalD3
  | 3, 3 => .illegalDB
  | 3, 4 => .illegalE3
  | 3, 5 => .illegalEB
  | 3, 6 => .di
  | 3, _ => .ei
  | 4, 4 => .illegalE4
  | 4, 5 => .illegalEC
  | 4, 6 => .illegalF4
  | 4, 7 => .illegalFC
  | 4, _ => .callCc (.ofCode (opCond op)) (wordOf n2 n1)
  | 5, 1 => .call (wordOf n2 n1)
  | 5, 3 => .illegalDD
  | 5, 5 => .illegalED
  | 5, 7 => .illegalFD
  | 5, _ => .push (.ofCode (opPair op))
  | 6, _ => aluN (opY op) n1
  | _, _ => .rst (opY op)

/-- The first page: the row the first byte selects, with the operand bytes put in (R132, R138). For 0xCB it is the
category `PREFIX CB`. -/
def decodeFirstPage (op n1 n2 : Byte) : Instr :=
  match (opGroup op).toNat with
  | 0 => decodeGroup0 op n1 n2
  | 1 => decodeGroup1 op
  | 2 => decodeGroup2 op
  | _ => decodeGroup3 op n1 n2

/-- The second page's turn: the byte after the prefix is decoded against the second page (R135, 46_misc_control.md R345);
every other first-page row is the instruction itself. -/
def resolvePrefix : Instr → Instr
  | .prefixCB second => (decodeCb second).toInstr
  | i => i

/-- The instruction whose first byte is `op` and whose following bytes are `n1` and `n2` (those its format has no use for
are ignored). -/
def decodeBytes (op n1 n2 : Byte) : Instr := resolvePrefix (decodeFirstPage op n1 n2)

/-- The number of bytes of an instruction, told by its first byte alone (R120, R135; the format column of R132). -/
def opLength (op : Byte) : Nat :=
  match op.toNat with
  | 0x01 | 0x11 | 0x21 | 0x31 | 0x08 => 3
  | 0xC2 | 0xC3 | 0xC4 | 0xCA | 0xCC | 0xCD | 0xD2 | 0xD4 | 0xDA | 0xDC | 0xEA | 0xFA => 3
  | 0x06 | 0x0E | 0x16 | 0x1E | 0x26 | 0x2E | 0x36 | 0x3E => 2
  | 0x10 | 0x18 | 0x20 | 0x28 | 0x30 | 0x38 => 2
  | 0xC6 | 0xCE | 0xD6 | 0xDE | 0xE6 | 0xEE | 0xF6 | 0xFE => 2
  | 0xE0 | 0xF0 | 0xE8 | 0xF8 | 0xCB => 2
  | _ => 1

/-- Why a list of bytes holds no instruction: it is too short. No byte is refused for its value (R138). -/
inductive DecodeError where
  /-- There is no first byte. -/
  | noOpcode
  /-- The first byte's format has more bytes than there are. -/
  | missingOperand
  deriving DecidableEq, Repr

/-- Decode the instruction at the head of a list of bytes; the bytes after it are returned (R120). -/
def decode : List Byte → Except DecodeError (Instr × List Byte)
  | [] => .error .noOpcode
  | op :: rest =>
    if opLength op ≤ rest.length + 1 then
      .ok (decodeBytes op (rest.getD 0 0) (rest.getD 1 0), rest.drop (opLength op - 1))
    else .error .missingOperand

/-! ### The host's numbering of table words -/

/-- The bytes of an instruction numbered as opcode_table.json numbers it: the first byte is bits 7:0 and later bytes
count on from it, but for the second-page rows, whose 16-bit `match` has the prefix 0xCB in bits 15:8 (log 7). -/
def tableBytes (nbits w : Nat) : List Byte :=
  if nbits = 16 ∧ w / 256 = 0xCB then [0xCB, BitVec.ofNat 8 w, 0]
  else [BitVec.ofNat 8 w, BitVec.ofNat 8 (w / 256), BitVec.ofNat 8 (w / 65536)]

/-- The instruction the decoder reads from a word of the table. -/
def decodeTableWord (nbits w : Nat) : Option Instr :=
  match decode (tableBytes nbits w) with
  | .ok (i, _) => some i
  | .error _ => none

/-! ### The encoder -/

/-- The bytes of an instruction, from the templates of R132 and R133. -/
def encode : Instr → List Byte
  | .nop => [0b00000000]
  | .stop pad => [0b00010000, pad]
  | .halt => [0b01110110]
  | .di => [0b11110011]
  | .ei => [0b11111011]
  | .ldRR dst src => [0b01#2 ++ dst.code ++ src.code]
  | .ldRN dst n8 => [0b00#2 ++ dst.code ++ 0b110#3, n8]
  | .ldRM dst => [0b01#2 ++ dst.code ++ 0b110#3]
  | .ldMR src => [0b01110#5 ++ src.code]
  | .ldMN n8 => [0b00110110, n8]
  | .ldABc => [0b00001010]
  | .ldADe => [0b00011010]
  | .ldBcA => [0b00000010]
  | .ldDeA => [0b00010010]
  | .ldAAbs a16 => [0b11111010, loByte a16, hiByte a16]
  | .ldAbsA a16 => [0b11101010, loByte a16, hiByte a16]
  | .ldhAImm a8 => [0b11110000, a8]
  | .ldhImmA a8 => [0b11100000, a8]
  | .ldhAC => [0b11110010]
  | .ldhCA => [0b11100010]
  | .ldHlIncA => [0b00100010]
  | .ldHlDecA => [0b00110010]
  | .ldAHlInc => [0b00101010]
  | .ldAHlDec => [0b00111010]
  | .ldRrNn rr n16 => [0b00#2 ++ rr.code ++ 0b0001#4, loByte n16, hiByte n16]
  | .ldAbsSp a16 => [0b00001000, loByte a16, hiByte a16]
  | .ldSpHl => [0b11111001]
  | .push rr => [0b11#2 ++ rr.code ++ 0b0101#4]
  | .pop rr => [0b11#2 ++ rr.code ++ 0b0001#4]
  | .addR src => [0b10000#5 ++ src.code]
  | .addM => [0b10000110]
  | .addN n8 => [0b11000110, n8]
  | .adcR src => [0b10001#5 ++ src.code]
  | .adcM => [0b10001110]
  | .adcN n8 => [0b11001110, n8]
  | .subR src => [0b10010#5 ++ src.code]
  | .subM => [0b10010110]
  | .subN n8 => [0b11010110, n8]
  | .sbcR src => [0b10011#5 ++ src.code]
  | .sbcM => [0b10011110]
  | .sbcN n8 => [0b11011110, n8]
  | .andR src => [0b10100#5 ++ src.code]
  | .andM => [0b10100110]
  | .andN n8 => [0b11100110, n8]
  | .xorR src => [0b10101#5 ++ src.code]
  | .xorM => [0b10101110]
  | .xorN n8 => [0b11101110, n8]
  | .orR src => [0b10110#5 ++ src.code]
  | .orM => [0b10110110]
  | .orN n8 => [0b11110110, n8]
  | .cpR src => [0b10111#5 ++ src.code]
  | .cpM => [0b10111110]
  | .cpN n8 => [0b11111110, n8]
  | .incR dst => [0b00#2 ++ dst.code ++ 0b100#3]
  | .incM => [0b00110100]
  | .decR dst => [0b00#2 ++ dst.code ++ 0b101#3]
  | .decM => [0b00110101]
  | .daa => [0b00100111]
  | .cpl => [0b00101111]
  | .scf => [0b00110111]
  | .ccf => [0b00111111]
  | .addHlRr rr => [0b00#2 ++ rr.code ++ 0b1001#4]
  | .incRr rr => [0b00#2 ++ rr.code ++ 0b0011#4]
  | .decRr rr => [0b00#2 ++ rr.code ++ 0b1011#4]
  | .addSpE e8 => [0b11101000, e8]
  | .ldHlSpE e8 => [0b11111000, e8]
  | .rlca => [0b00000111]
  | .rrca => [0b00001111]
  | .rla => [0b00010111]
  | .rra => [0b00011111]
  | .jp a16 => [0b11000011, loByte a16, hiByte a16]
  | .jpCc cc a16 => [0b110#3 ++ cc.code ++ 0b010#3, loByte a16, hiByte a16]
  | .jpHl => [0b11101001]
  | .jr e8 => [0b00011000, e8]
  | .jrCc cc e8 => [0b001#3 ++ cc.code ++ 0b000#3, e8]
  | .call a16 => [0b11001101, loByte a16, hiByte a16]
  | .callCc cc a16 => [0b110#3 ++ cc.code ++ 0b100#3, loByte a16, hiByte a16]
  | .ret => [0b11001001]
  | .retCc cc => [0b110#3 ++ cc.code ++ 0b000#3]
  | .reti => [0b11011001]
  | .rst n => [0b11#2 ++ n ++ 0b111#3]
  | .illegalD3 => [0xD3]
  | .illegalDB => [0xDB]
  | .illegalDD => [0xDD]
  | .illegalE3 => [0xE3]
  | .illegalE4 => [0xE4]
  | .illegalEB => [0xEB]
  | .illegalEC => [0xEC]
  | .illegalED => [0xED]
  | .illegalF4 => [0xF4]
  | .illegalFC => [0xFC]
  | .illegalFD => [0xFD]
  | .prefixCB second => [0b11001011, second]
  | .rlcR dst => [0xCB, 0b00000#5 ++ dst.code]
  | .rlcM => [0xCB, 0b00000110]
  | .rrcR dst => [0xCB, 0b00001#5 ++ dst.code]
  | .rrcM => [0xCB, 0b00001110]
  | .rlR dst => [0xCB, 0b00010#5 ++ dst.code]
  | .rlM => [0xCB, 0b00010110]
  | .rrR dst => [0xCB, 0b00011#5 ++ dst.code]
  | .rrM => [0xCB, 0b00011110]
  | .slaR dst => [0xCB, 0b00100#5 ++ dst.code]
  | .slaM => [0xCB, 0b00100110]
  | .sraR dst => [0xCB, 0b00101#5 ++ dst.code]
  | .sraM => [0xCB, 0b00101110]
  | .swapR dst => [0xCB, 0b00110#5 ++ dst.code]
  | .swapM => [0xCB, 0b00110110]
  | .srlR dst => [0xCB, 0b00111#5 ++ dst.code]
  | .srlM => [0xCB, 0b00111110]
  | .bitR bit reg => [0xCB, 0b01#2 ++ bit ++ reg.code]
  | .bitM bit => [0xCB, 0b01#2 ++ bit ++ 0b110#3]
  | .resR bit reg => [0xCB, 0b10#2 ++ bit ++ reg.code]
  | .resM bit => [0xCB, 0b10#2 ++ bit ++ 0b110#3]
  | .setR bit reg => [0xCB, 0b11#2 ++ bit ++ reg.code]
  | .setM bit => [0xCB, 0b11#2 ++ bit ++ 0b110#3]

end Sys2Proof
end

