-- ==== Sys2Proof/Config.lean ====
section
/-! DEFINITION. The parameters of the block (00_scope.md R7), with the values the spec decides for them, and the one
free value: the colours of SHADE_RGB. -/

namespace Sys2Proof

/-- The parameters a machine is built with (R7). The host's SHADE_RGB stands apart (`shadeRgb`), since no rule of the
block reads it. -/
structure Config where
  /-- TICKS_PER_CYCLE: timer ticks and PPU steps per unit of instruction cost (R7, R11). -/
  ticksPerCycle : Nat
  /-- RESET_PC. -/
  resetPc : Word
  /-- RESET_SP. -/
  resetSp : Word
  /-- RESET_AF; its low nibble must be zero (10_state.md R60). -/
  resetAf : Word
  /-- RESET_BC. -/
  resetBc : Word
  /-- RESET_DE. -/
  resetDe : Word
  /-- RESET_HL. -/
  resetHl : Word
  deriving DecidableEq, Repr

/-- The values R7 decides (92_eei_decisions.md D2, D24). DESIGN CHOICE, log 1: the spec leaves TICKS_PER_CYCLE open and
gives 1 as its default; `Machine.step` runs with this configuration. -/
def Config.standard : Config where
  ticksPerCycle := 1
  resetPc := 0x0100
  resetSp := 0xFFFE
  resetAf := 0x01B0
  resetBc := 0x0013
  resetDe := 0x00D8
  resetHl := 0x014D

/-- What a configuration must meet: RESET_AF[3:0] is zero (R60). -/
abbrev Config.WellFormed (cfg : Config) : Prop := cfg.resetAf &&& 0x000F = 0

/-- The host's colour of a shade other than white: a free value, with no body (R7 leaves the triples to the host; log 8). -/
opaque Config.shadeRgbFree : Shade → Byte × Byte × Byte

/-- SHADE_RGB (R7, R407): shade 0 is white; every other colour is the host's. -/
def Config.shadeRgb (shade : Shade) : Byte × Byte × Byte :=
  if shade = 0 then (255, 255, 255) else Config.shadeRgbFree shade

end Sys2Proof
end

