-- ==== Sys2Proof/Machine/State.lean ====
section
/-! DEFINITION. The state of the block (10_state.md), as plain data, and its reset values (10_state.md section 8). -/

namespace Sys2Proof.Machine

/-- The three error kinds of the block (10_state.md R32, 60_exceptions.md R360). A fault is a value the state element
`fault` records and the host observes; the Step that raises it is a `next` state and every later Step changes nothing
(R361), so `step` never ends in the `fault` outcome (log 4). -/
inductive Fault where
  /-- Raised by the fetch of one of the eleven undefined bytes as a first opcode byte (R362). Safe: the machine is stuck,
  as the spec says. -/
  | unknownOpcode (opcode : Byte) (addr : Word)
  /-- Raised by nothing: every address is reduced modulo 65536 before use (R363). Safe. -/
  | invalidAddress
  /-- Raised by nothing: every row of the opcode table has a supported operand form (R363). Safe. -/
  | invalidArgument
  deriving DecidableEq, Repr

/-- Why a step or a host move is refused. -/
inductive Refusal where
  /-- An instruction without a meaning, by its mnemonic. No arm of `exec` answers it. Safe. -/
  | notModelled (mnemonic : String)
  /-- The host move Reset with a ROM image over 32,768 bytes (20_memory.md R87, 93_implementation_defined.md U20). Safe:
  no state is created. -/
  | romImageTooLong (length : Nat)
  deriving DecidableEq, Repr

/-- The PPU mode `pmode` (10_state.md R37). -/
inductive PpuMode where
  | hBlank
  | vBlank
  | oamScan
  | pixelTransfer
  deriving DecidableEq, Repr

/-- An event toward the display sink (10_state.md R38). -/
inductive DisplayEvent where
  | setPixel (x y : Nat) (shade : Shade)
  | repaint
  deriving DecidableEq, Repr

/-- The 65,536 bytes of R35 as a list of (address, byte) pairs in one canonical form (`Memory.wf`, Machine/Ops.lean). -/
abbrev Memory := List Host.Cell

/-- All state of the block (10_state.md, opening: "Nothing else is state"). The pairs AF, BC, DE, HL are views (R21) and
the memory-mapped registers are bytes of `mem` (R40). -/
structure State where
  /-- The accumulator (R20). -/
  a : Byte
  /-- The flags in the high nibble; the low nibble is hard-wired to zero (R22, R23). -/
  f : Byte
  b : Byte
  c : Byte
  d : Byte
  e : Byte
  h : Byte
  l : Byte
  /-- The address of the next byte to be fetched (R25). -/
  pc : Word
  /-- The stack pointer (R27). -/
  sp : Word
  /-- The global interrupt enable IME (R29). -/
  ime : Bool
  /-- The delayed effect of EI (R30). -/
  eiPending : Bool
  /-- 1 after HALT until an enabled interrupt is pending (R31). -/
  halted : Bool
  /-- 1 after STOP (R31). -/
  stopped : Bool
  /-- The recorded fault; none is the spec's `None` (R32). -/
  fault : Option Fault
  /-- The running cycle total, an unbounded natural number (R33). -/
  cycles : Nat
  /-- The flat address space (R35). -/
  mem : Memory
  /-- The timer's free-running counter (R36). -/
  tcount : Word
  /-- The timer's pending-overflow flag (R36). -/
  tov : Bool
  /-- The timer's previous sampled bit (R36). -/
  tprev : Bool
  /-- The PPU mode (R37). -/
  pmode : PpuMode
  /-- The scanline index (R37); a natural number, log 9. -/
  ly : Nat
  /-- Ticks since the current mode was entered (R37); a natural number, log 9. -/
  pcnt : Nat
  /-- The display events emitted so far, oldest first (R38, 60_exceptions.md R382). -/
  events : List DisplayEvent
  deriving DecidableEq, Repr

/-- The outcome of a step or of a meaning. -/
abbrev Result := Host.Outcome State Fault Refusal

/-- The state after Reset with an empty ROM image, for the given parameters: the values of 10_state.md R60 to R65. The
move with an image is `hostReset` (Machine/HostMoves.lean). -/
def State.powerOn (cfg : Config) : State where
  a := cfg.resetAf.extractLsb' 8 8
  f := cfg.resetAf.extractLsb' 0 8
  b := cfg.resetBc.extractLsb' 8 8
  c := cfg.resetBc.extractLsb' 0 8
  d := cfg.resetDe.extractLsb' 8 8
  e := cfg.resetDe.extractLsb' 0 8
  h := cfg.resetHl.extractLsb' 8 8
  l := cfg.resetHl.extractLsb' 0 8
  pc := cfg.resetPc
  sp := cfg.resetSp
  ime := false
  eiPending := false
  halted := false
  stopped := false
  fault := none
  cycles := 0
  mem := []
  tcount := 0
  tov := false
  tprev := false
  pmode := .oamScan
  ly := 0
  pcnt := 0
  events := []

/-- The machine right after reset, with the values R7 decides and no ROM image loaded (R60 to R65; log 2). -/
def State.reset : State := State.powerOn Config.standard

end Sys2Proof.Machine
end

