-- ==== Sys2Proof/Machine/Ops.lean ====
section
/-! DEFINITION. The shared operations: memory and the bus (20_memory.md), the registers and the stack (10_state.md R20 to
R27, 44_stack.md R320), raising a fault (60_exceptions.md R361), requesting, dispatching and returning from an interrupt
(R366, R368, R370, R371). -/

namespace Sys2Proof.Machine

/-! ### Memory as canonical data -/

/-- What an address that the list does not name reads as: 0x00, the reset content of every byte outside the ROM image
(10_state.md R62; log 3). -/
def Memory.unlisted : Byte := 0x00

/-- Every listed address is above `lo` when one is given, below 65536, in strictly rising order, and its byte is not the
one an unlisted address reads as. -/
def Memory.wfFrom (lo : Option Nat) : Memory → Bool
  | [] => true
  | (a, v) :: m =>
    (match lo with | none => true | some b => decide (b < a)) && decide (a < 65536) && decide (v ≠ Memory.unlisted)
      && Memory.wfFrom (some a) m

/-- The canonical form: addresses strictly rising and below 65536 (R35), no entry equal to `Memory.unlisted`. -/
def Memory.wf (m : Memory) : Bool := Memory.wfFrom none m

/-- The byte at an address. -/
def Memory.read : Memory → Nat → Byte
  | [], _ => Memory.unlisted
  | (b, w) :: m, a => if a = b then w else Memory.read m a

/-- The list entry for a byte: none for the byte an unlisted address reads as. -/
def Memory.cell (a : Nat) (v : Byte) : Memory := if v = Memory.unlisted then [] else [(a, v)]

/-- Put a byte at an address, keeping the canonical form. -/
def Memory.write : Memory → Nat → Byte → Memory
  | [], a, v => Memory.cell a v
  | (b, w) :: m, a, v =>
    if a < b then Memory.cell a v ++ (b, w) :: m
    else if a = b then Memory.cell a v ++ m
    else (b, w) :: Memory.write m a v

/-- Put bytes at an address and the ones after it, modulo 65536. -/
def Memory.place : Memory → Word → List Byte → Memory
  | m, _, [] => m
  | m, a, v :: vs => Memory.place (m.write a.toNat v) (a + 1) vs

/-! ### The bus -/

/-- The write-protected addresses: the ROM regions and the "not usable" region (20_memory.md R82). -/
def writeProtected (a : Word) : Bool := decide (a.toNat ≤ 0x7FFF) || (decide (0xFEA0 ≤ a.toNat) && decide (a.toNat ≤ 0xFEFF))

/-- `MemRead(addr, 1)` (R84). -/
def State.memRead (s : State) (a : Word) : Byte := s.mem.read a.toNat

/-- `MemWrite(addr, 1, v)` (R85): a write to a protected address is discarded. -/
def State.memWrite (s : State) (a : Word) (v : Byte) : State :=
  if writeProtected a then s else { s with mem := s.mem.write a.toNat v }

/-- `MemWrite(addr, 2, v)`: `v[7:0]` to `addr`, then `v[15:8]` to `addr + 1` modulo 65536 (00_scope.md R10, R90). -/
def State.memWriteWord (s : State) (a v : Word) : State := (s.memWrite a (loByte v)).memWrite (a + 1) (hiByte v)

/-- `MemRead(addr, 2)`: the low byte at the lower address (00_scope.md R10, R90). -/
def State.memReadWord (s : State) (a : Word) : Word := wordOf (s.memRead (a + 1)) (s.memRead a)

/-! ### Addresses of the memory-mapped registers (10_state.md R40) -/

def addrDIV : Word := 0xFF04
def addrTIMA : Word := 0xFF05
def addrTMA : Word := 0xFF06
def addrTAC : Word := 0xFF07
def addrIF : Word := 0xFF0F
def addrLCDC : Word := 0xFF40
def addrSTAT : Word := 0xFF41
def addrSCY : Word := 0xFF42
def addrSCX : Word := 0xFF43
def addrLY : Word := 0xFF44
def addrLYC : Word := 0xFF45
def addrBGP : Word := 0xFF47
def addrIE : Word := 0xFFFF

/-! ### Registers -/

/-- The 8-bit register a selector names (R20, 30_encoding.md R124). -/
def State.reg (s : State) : R8 → Byte
  | .b => s.b
  | .c => s.c
  | .d => s.d
  | .e => s.e
  | .h => s.h
  | .l => s.l
  | .a => s.a

/-- Write an 8-bit register. -/
def State.setReg (s : State) (r : R8) (v : Byte) : State :=
  match r with
  | .b => { s with b := v }
  | .c => { s with c := v }
  | .d => { s with d := v }
  | .e => { s with e := v }
  | .h => { s with h := v }
  | .l => { s with l := v }
  | .a => { s with a := v }

/-- Write F as a whole byte: the low nibble is hard-wired to zero (R22). -/
def State.setF (s : State) (v : Byte) : State := { s with f := v &&& 0xF0 }

/-- The pair views (R21): the first-named register is the high byte. -/
def State.af (s : State) : Word := wordOf s.a s.f
def State.bc (s : State) : Word := wordOf s.b s.c
def State.de (s : State) : Word := wordOf s.d s.e
def State.hl (s : State) : Word := wordOf s.h s.l

/-- Writing a pair writes both halves (R21). -/
def State.setAf (s : State) (v : Word) : State := { s with a := hiByte v, f := loByte v &&& 0xF0 }
def State.setBc (s : State) (v : Word) : State := { s with b := hiByte v, c := loByte v }
def State.setDe (s : State) (v : Word) : State := { s with d := hiByte v, e := loByte v }
def State.setHl (s : State) (v : Word) : State := { s with h := hiByte v, l := loByte v }

/-- Add an instruction's cost to the running total (R33); the Step forwards that many cycles of ticks
(60_exceptions.md R380; log 6). -/
def State.spend (s : State) (cost : Nat) : State := { s with cycles := s.cycles + cost }

/-- An instruction that completes with the given cost. -/
def done (cost : Nat) (s : State) : Result := .next (s.spend cost)

/-! ### The stack (44_stack.md R320) -/

/-- `Push16(v)`: the high byte to SP - 1, then the low byte to SP - 2; each write obeys write protection. -/
def State.push16 (s : State) (v : Word) : State :=
  let s1 := s.memWrite (s.sp - 1) (hiByte v)
  let s2 := s1.memWrite (s.sp - 2) (loByte v)
  { s2 with sp := s.sp - 2 }

/-- The value `Pop16()` returns: the low byte from SP, the high byte from SP + 1. -/
def State.popValue (s : State) : Word := wordOf (s.memRead (s.sp + 1)) (s.memRead s.sp)

/-- The effect of `Pop16()` on SP. -/
def State.popSp (s : State) : State := { s with sp := s.sp + 2 }

/-! ### Control transfer (42_jumps.md R262) -/

/-- `pc <- target` (00_scope.md R10). -/
def State.jump (s : State) (target : Word) : State := { s with pc := target }

/-- `Push16(PC); pc <- target` (42_jumps.md R256, R261). -/
def State.callTo (s : State) (target : Word) : State := (s.push16 s.pc).jump target

/-- `pc <- Pop16()` (42_jumps.md R258). -/
def State.returnPop (s : State) : State := s.popSp.jump s.popValue

/-! ### Faults (60_exceptions.md R361, R362) -/

/-- `raise f`: record the fault and end the Step; no cost is added, so no tick is forwarded (R361). -/
def raiseFault (fault : Fault) (s : State) : Result := .next { s with fault := some fault }

/-- The effect of fetching an undefined opcode byte (R362). The opcode fetch has advanced PC, so the byte came from
PC - 1. -/
def raiseUnknownOpcode (opcode : Byte) (s : State) : Result := raiseFault (.unknownOpcode opcode (s.pc - 1)) s

/-! ### Interrupts (60_exceptions.md R365 to R371) -/

/-- The five interrupt kinds in priority order (R365, R368). -/
inductive Irq where
  | vBlank
  | lcdStat
  | timer
  | serial
  | joypad
  deriving DecidableEq, Repr

/-- The kind's number `k`, its bit of IF and IE (R365). -/
def Irq.index : Irq → Nat
  | .vBlank => 0
  | .lcdStat => 1
  | .timer => 2
  | .serial => 3
  | .joypad => 4

/-- The kind's bit as a mask, `1 << k`. -/
def Irq.mask (k : Irq) : Byte := (1 : Byte) <<< k.index

/-- The kind's vector, `0x0040 + 8 * k` (R365). -/
def Irq.vector (k : Irq) : Word := 0x0040 + 8 * BitVec.ofNat 16 k.index

/-- `RequestInterrupt(k)` (R366): set bit `k` of IF. -/
def requestInterrupt (k : Irq) (s : State) : State := s.memWrite addrIF (s.memRead addrIF ||| k.mask)

/-- `pend`: the interrupts that are pending and enabled, bits 4:0 only (R370, R380). -/
def pendingEnabled (s : State) : Byte := s.memRead addrIF &&& s.memRead addrIE &&& 0x1F

/-- The kind of the lowest set bit of `pend` (R368, R370); `joypad` where bits 3:0 are clear. -/
def lowestPending (pend : Byte) : Irq :=
  if pend.getLsbD 0 then .vBlank
  else if pend.getLsbD 1 then .lcdStat
  else if pend.getLsbD 2 then .timer
  else if pend.getLsbD 3 then .serial
  else .joypad

/-- Clear bit `k` of IF: "clears the corresponding flag bit" (R370); the other bits are preserved. -/
def acknowledgeIrq (k : Irq) (s : State) : State := s.memWrite addrIF (s.memRead addrIF &&& ~~~k.mask)

/-- Dispatch of an interrupt of kind `k` (R370): clear IME, clear bit `k` of IF, push PC, go to the vector, cost 5. The
kind is chosen before the push and not re-evaluated (93_implementation_defined.md U19). `ei_pending` is kept, in R370's words
"not changed here"; so an EI that found IME already set still takes effect at the end of the handler's first instruction,
where 46_misc_control.md R344 (3) gives such an EI no visible effect: DESIGN CHOICE, log 16. -/
def dispatchInterrupt (k : Irq) (s : State) : State :=
  ((acknowledgeIrq k { s with ime := false }).callTo k.vector).spend 5

/-- Return from an interrupt (R371, 42_jumps.md R260): pop PC and set IME at once. -/
def returnFromInterrupt (s : State) : State := { s.returnPop with ime := true }

end Sys2Proof.Machine
end

