-- ==== Sys2Proof/Machine/Flags.lean ====
section
/-! DEFINITION. The four flags (10_state.md R23, R28) and every result and flag computation of the ALU: 40_arithmetic.md
R161, R162, R176 to R195; 41_bit_manipulation.md R210, R231; 45_arith16.md R330, R333. Operands are read as integers, the
result is computed exactly and then narrowed (00_scope.md R9). -/

namespace Sys2Proof.Machine

/-- `fZ = F[7]` (R23). -/
def State.fZ (s : State) : Bool := s.f.getLsbD 7

/-- `fN = F[6]` (R23). -/
def State.fN (s : State) : Bool := s.f.getLsbD 6

/-- `fH = F[5]` (R23). -/
def State.fH (s : State) : Bool := s.f.getLsbD 5

/-- `fC = F[4]` (R23). -/
def State.fC (s : State) : Bool := s.f.getLsbD 4

/-- The flags register with the given flags and a zero low nibble (R22, R23). -/
def packFlags (z n h c : Bool) : Byte :=
  BitVec.ofBool z ++ BitVec.ofBool n ++ BitVec.ofBool h ++ BitVec.ofBool c ++ 0#4

/-- Write the four flags; one that an instruction leaves unchanged is given its old value (log 11). -/
def State.setFlags (s : State) (z n h c : Bool) : State := s.setF (packFlags z n h c)

/-- An 8-bit result with its flags. -/
structure AluOut where
  value : Byte
  z : Bool
  n : Bool
  h : Bool
  c : Bool
  deriving DecidableEq, Repr

/-- Write the flags of a result. -/
def State.setAluFlags (s : State) (r : AluOut) : State := s.setFlags r.z r.n r.h r.c

/-- Write a result to A, with its flags. -/
def State.setAcc (s : State) (r : AluOut) : State := ({ s with a := r.value } : State).setAluFlags r

/-- `Add8(a, b, c)` (R161). -/
def add8 (a b : Byte) (c : Bool) : AluOut :=
  let sum := a.toNat + b.toNat + c.toNat
  let res := BitVec.ofNat 8 sum
  { value := res
    z := res == 0
    n := false
    h := decide ((a &&& 0x0F).toNat + (b &&& 0x0F).toNat + c.toNat > 15)
    c := decide (sum > 255) }

/-- `Sub8(a, b, c)` (R162). -/
def sub8 (a b : Byte) (c : Bool) : AluOut :=
  let diff : Int := (a.toNat : Int) - b.toNat - c.toNat
  let res := BitVec.ofInt 8 diff
  { value := res
    z := res == 0
    n := true
    h := decide (((a &&& 0x0F).toNat : Int) - (b &&& 0x0F).toNat - c.toNat < 0)
    c := decide (diff < 0) }

/-- AND: H is set (R176). -/
def and8 (a b : Byte) : AluOut := { value := a &&& b, z := a &&& b == 0, n := false, h := true, c := false }

/-- XOR (R179). -/
def xor8 (a b : Byte) : AluOut := { value := a ^^^ b, z := a ^^^ b == 0, n := false, h := false, c := false }

/-- OR (R182). -/
def or8 (a b : Byte) : AluOut := { value := a ||| b, z := a ||| b == 0, n := false, h := false, c := false }

/-- 8-bit increment (R188); the carry is passed through. -/
def inc8 (v : Byte) (carry : Bool) : AluOut :=
  { value := v + 1, z := v + 1 == 0, n := false, h := (v &&& 0x0F) == 0x0F, c := carry }

/-- 8-bit decrement (R190); the carry is passed through. -/
def dec8 (v : Byte) (carry : Bool) : AluOut :=
  { value := v - 1, z := v - 1 == 0, n := true, h := (v &&& 0x0F) == 0x00, c := carry }

/-- Decimal adjust (R192): both tests of the addition branch look at the unadjusted byte. -/
def daa8 (a : Byte) (n h c : Bool) : AluOut :=
  if n then
    let adj : Byte := (if h then 0x06 else 0) + (if c then 0x60 else 0)
    { value := a - adj, z := a - adj == 0, n := n, h := false, c := c }
  else
    let low := h || decide ((a &&& 0x0F).toNat > 0x09)
    let high := c || decide (a.toNat > 0x99)
    let adj : Byte := (if low then 0x06 else 0) + (if high then 0x60 else 0)
    { value := a + adj, z := a + adj == 0, n := n, h := false, c := high }

/-- The single-bit rotates and shifts and SWAP with their carry-out (R210). -/
def shift8 (op : ShiftOp) (v : Byte) (c : Bool) : Byte × Bool :=
  match op with
  | .rlc => (v.extractLsb' 0 7 ++ v.extractLsb' 7 1, v.getLsbD 7)
  | .rrc => (v.extractLsb' 0 1 ++ v.extractLsb' 1 7, v.getLsbD 0)
  | .rl => (v.extractLsb' 0 7 ++ BitVec.ofBool c, v.getLsbD 7)
  | .rr => (BitVec.ofBool c ++ v.extractLsb' 1 7, v.getLsbD 0)
  | .sla => (v.extractLsb' 0 7 ++ 0#1, v.getLsbD 7)
  | .sra => (v.extractLsb' 7 1 ++ v.extractLsb' 1 7, v.getLsbD 0)
  | .swap => (v.extractLsb' 0 4 ++ v.extractLsb' 4 4, false)
  | .srl => (0#1 ++ v.extractLsb' 1 7, v.getLsbD 0)

/-- A second-page rotate or shift as a result with flags: Z computed, N = H = 0, C the carry-out (41_bit_manipulation.md
section 3). -/
def shiftOut (op : ShiftOp) (v : Byte) (c : Bool) : AluOut :=
  let (res, co) := shift8 op v c
  { value := res, z := res == 0, n := false, h := false, c := co }

/-- A first-page rotate of A: as its second-page counterpart but Z = 0 (R211 to R214). -/
def rotateAOut (op : ShiftOp) (v : Byte) (c : Bool) : AluOut := { shiftOut op v c with z := false }

/-- The flags of ADD HL,rr: carries out of bits 11 and 15 (R330). -/
def add16Half (x y : Word) : Bool := decide ((x &&& 0x0FFF).toNat + (y &&& 0x0FFF).toNat > 0x0FFF)
def add16Carry (x y : Word) : Bool := decide (x.toNat + y.toNat > 0xFFFF)

/-- The flags of the stack-pointer arithmetic: carries of the low byte of SP plus the raw operand byte (R333). -/
def addSpHalf (sp : Word) (e8 : Byte) : Bool := decide ((sp &&& 0x000F).toNat + (e8 &&& 0x0F).toNat > 0x0F)
def addSpCarry (sp : Word) (e8 : Byte) : Bool := decide ((sp &&& 0x00FF).toNat + e8.toNat > 0xFF)

end Sys2Proof.Machine
end

