-- ==== Sys2Proof/Machine/Operands.lean ====
section
/-! DEFINITION. Operand forms: pairs by selector (30_encoding.md R125, R126), conditions (42_jumps.md R250), the signed
operand byte (30_encoding.md R129), the effective addresses of the loads (43_loads.md R280), the byte at HL. -/

namespace Sys2Proof.Machine

/-- The pair an `r16` selector names (R125). -/
def State.pair (s : State) : R16 → Word
  | .bc => s.bc
  | .de => s.de
  | .hl => s.hl
  | .sp => s.sp

/-- Write the pair an `r16` selector names. -/
def State.setPair (s : State) (rr : R16) (v : Word) : State :=
  match rr with
  | .bc => s.setBc v
  | .de => s.setDe v
  | .hl => s.setHl v
  | .sp => { s with sp := v }

/-- The pair an `r16stk` selector names (R126). -/
def State.stkPair (s : State) : R16Stk → Word
  | .bc => s.bc
  | .de => s.de
  | .hl => s.hl
  | .af => s.af

/-- Write the pair an `r16stk` selector names; AF masks the low nibble of F (44_stack.md R322). -/
def State.setStkPair (s : State) (rr : R16Stk) (v : Word) : State :=
  match rr with
  | .bc => s.setBc v
  | .de => s.setDe v
  | .hl => s.setHl v
  | .af => s.setAf v

/-- `cond(a)` (42_jumps.md R250). -/
def State.cond (s : State) : Cond → Bool
  | .nz => !s.fZ
  | .z => s.fZ
  | .nc => !s.fC
  | .c => s.fC

/-- `sext_16(e8)` as a 16-bit addend (00_scope.md R10, 30_encoding.md R129). -/
def sext16 (e8 : Byte) : Word := e8.signExtend 16

/-- The high-page address `0xFF00 + offset` (43_loads.md R280). -/
def highPage (offset : Byte) : Word := 0xFF00 + offset.zeroExtend 16

/-- The byte of memory at HL, the operand `(HL)` (30_encoding.md R124). -/
def State.atHl (s : State) : Byte := s.memRead s.hl

/-- Write the byte of memory at HL. -/
def State.setAtHl (s : State) (v : Byte) : State := s.memWrite s.hl v

/-- The byte with bit `bit` cleared (41_bit_manipulation.md R233). -/
def clearBit (v : Byte) (bit : BitVec 3) : Byte := v &&& ~~~((1 : Byte) <<< bit.toNat)

/-- The byte with bit `bit` set (R235). -/
def setBit (v : Byte) (bit : BitVec 3) : Byte := v ||| ((1 : Byte) <<< bit.toNat)

end Sys2Proof.Machine
end

