-- ==== Sys2Proof/Machine/Alu.lean ====
section
/-! DEFINITION. 8-bit arithmetic and logic (40_arithmetic.md R160 to R195). -/

namespace Sys2Proof.Machine

/-- `ADD A,r` (R164). -/
def execAddR (src : R8) (s : State) : Result := done 1 (s.setAcc (add8 s.a (s.reg src) false))

/-- `ADD A,(HL)` (R165). -/
def execAddM (s : State) : Result := done 2 (s.setAcc (add8 s.a s.atHl false))

/-- `ADD A,n8` (R166). -/
def execAddN (n8 : Byte) (s : State) : Result := done 2 (s.setAcc (add8 s.a n8 false))

/-- `ADC A,r` with the carry (R167). -/
def execAdcR (src : R8) (s : State) : Result := done 1 (s.setAcc (add8 s.a (s.reg src) s.fC))

/-- `ADC A,(HL)` with the carry (R168). -/
def execAdcM (s : State) : Result := done 2 (s.setAcc (add8 s.a s.atHl s.fC))

/-- `ADC A,n8` with the carry (R169). -/
def execAdcN (n8 : Byte) (s : State) : Result := done 2 (s.setAcc (add8 s.a n8 s.fC))

/-- `SUB r` (R170). -/
def execSubR (src : R8) (s : State) : Result := done 1 (s.setAcc (sub8 s.a (s.reg src) false))

/-- `SUB (HL)` (R171). -/
def execSubM (s : State) : Result := done 2 (s.setAcc (sub8 s.a s.atHl false))

/-- `SUB n8` (R172). -/
def execSubN (n8 : Byte) (s : State) : Result := done 2 (s.setAcc (sub8 s.a n8 false))

/-- `SBC A,r` with the borrow (R173). -/
def execSbcR (src : R8) (s : State) : Result := done 1 (s.setAcc (sub8 s.a (s.reg src) s.fC))

/-- `SBC A,(HL)` with the borrow (R174). -/
def execSbcM (s : State) : Result := done 2 (s.setAcc (sub8 s.a s.atHl s.fC))

/-- `SBC A,n8` with the borrow (R175). -/
def execSbcN (n8 : Byte) (s : State) : Result := done 2 (s.setAcc (sub8 s.a n8 s.fC))

/-- `AND r` (R176). -/
def execAndR (src : R8) (s : State) : Result := done 1 (s.setAcc (and8 s.a (s.reg src)))

/-- `AND (HL)` (R177). -/
def execAndM (s : State) : Result := done 2 (s.setAcc (and8 s.a s.atHl))

/-- `AND n8` (R178). -/
def execAndN (n8 : Byte) (s : State) : Result := done 2 (s.setAcc (and8 s.a n8))

/-- `XOR r` (R179). -/
def execXorR (src : R8) (s : State) : Result := done 1 (s.setAcc (xor8 s.a (s.reg src)))

/-- `XOR (HL)` (R180). -/
def execXorM (s : State) : Result := done 2 (s.setAcc (xor8 s.a s.atHl))

/-- `XOR n8` (R181). -/
def execXorN (n8 : Byte) (s : State) : Result := done 2 (s.setAcc (xor8 s.a n8))

/-- `OR r` (R182). -/
def execOrR (src : R8) (s : State) : Result := done 1 (s.setAcc (or8 s.a (s.reg src)))

/-- `OR (HL)` (R183). -/
def execOrM (s : State) : Result := done 2 (s.setAcc (or8 s.a s.atHl))

/-- `OR n8` (R184). -/
def execOrN (n8 : Byte) (s : State) : Result := done 2 (s.setAcc (or8 s.a n8))

/-- `CP r`: the flags of SUB; A is not written (R185). -/
def execCpR (src : R8) (s : State) : Result := done 1 (s.setAluFlags (sub8 s.a (s.reg src) false))

/-- `CP (HL)`: the flags of SUB; A is not written (R186). -/
def execCpM (s : State) : Result := done 2 (s.setAluFlags (sub8 s.a s.atHl false))

/-- `CP n8`: the flags of SUB; A is not written (R187). -/
def execCpN (n8 : Byte) (s : State) : Result := done 2 (s.setAluFlags (sub8 s.a n8 false))

/-- `INC r` (R188). -/
def execIncR (dst : R8) (s : State) : Result :=
  let r := inc8 (s.reg dst) s.fC
  done 1 ((s.setReg dst r.value).setAluFlags r)

/-- `INC (HL)` (R189): the flags are those of the value read, whether or not the write is discarded. -/
def execIncM (s : State) : Result :=
  let r := inc8 s.atHl s.fC
  done 3 ((s.setAtHl r.value).setAluFlags r)

/-- `DEC r` (R190). -/
def execDecR (dst : R8) (s : State) : Result :=
  let r := dec8 (s.reg dst) s.fC
  done 1 ((s.setReg dst r.value).setAluFlags r)

/-- `DEC (HL)` (R191). -/
def execDecM (s : State) : Result :=
  let r := dec8 s.atHl s.fC
  done 3 ((s.setAtHl r.value).setAluFlags r)

/-- `DAA` (R192). -/
def execDaa (s : State) : Result := done 1 (s.setAcc (daa8 s.a s.fN s.fH s.fC))

/-- `CPL` (R193): Z and C are unchanged. -/
def execCpl (s : State) : Result := done 1 (({ s with a := s.a ^^^ 0xFF } : State).setFlags s.fZ true true s.fC)

/-- `SCF` (R194). -/
def execScf (s : State) : Result := done 1 (s.setFlags s.fZ false false true)

/-- `CCF` (R195). -/
def execCcf (s : State) : Result := done 1 (s.setFlags s.fZ false false (!s.fC))

end Sys2Proof.Machine
end

