-- ==== Sys2Proof/Machine/Arith16.lean ====
section
/-! DEFINITION. 16-bit arithmetic (45_arith16.md R330 to R334). -/

namespace Sys2Proof.Machine

/-- `ADD HL,rr` (R330): Z is unchanged. -/
def execAddHlRr (rr : R16) (s : State) : Result :=
  let x := s.hl
  let y := s.pair rr
  done 2 ((s.setHl (x + y)).setFlags s.fZ false (add16Half x y) (add16Carry x y))

/-- `INC rr` (R331): no flag is written. -/
def execIncRr (rr : R16) (s : State) : Result := done 2 (s.setPair rr (s.pair rr + 1))

/-- `DEC rr` (R332): no flag is written. -/
def execDecRr (rr : R16) (s : State) : Result := done 2 (s.setPair rr (s.pair rr - 1))

/-- The flags of SP plus the signed byte: Z = N = 0, H and C of the low byte (R333). -/
def State.setSpFlags (s : State) (sp : Word) (e8 : Byte) : State :=
  s.setFlags false false (addSpHalf sp e8) (addSpCarry sp e8)

/-- `ADD SP,e8` (R333). -/
def execAddSpE (e8 : Byte) (s : State) : Result :=
  done 4 (({ s with sp := s.sp + sext16 e8 } : State).setSpFlags s.sp e8)

/-- `LD HL,SP+e8` (R334). -/
def execLdHlSpE (e8 : Byte) (s : State) : Result := done 3 ((s.setHl (s.sp + sext16 e8)).setSpFlags s.sp e8)

end Sys2Proof.Machine
end

