-- ==== Sys2Proof/Machine/Bits.lean ====
section
/-! DEFINITION. Rotates, shifts and bit operations (41_bit_manipulation.md R210 to R236). -/

namespace Sys2Proof.Machine

/-- The common register form of R215 to R230. -/
def shiftReg (op : ShiftOp) (dst : R8) (s : State) : Result :=
  let r := shiftOut op (s.reg dst) s.fC
  done 2 ((s.setReg dst r.value).setAluFlags r)

/-- The common `(HL)` form of R215 to R230: a write to a protected address is discarded, the flags still reflect the
computed result. -/
def shiftMem (op : ShiftOp) (s : State) : Result :=
  let r := shiftOut op s.atHl s.fC
  done 4 ((s.setAtHl r.value).setAluFlags r)

/-- The flags of a bit test: Z is the complement of the tested bit, N = 0, H = 1, C unchanged (R231). -/
def testBit (v : Byte) (bit : BitVec 3) (s : State) : State := s.setFlags (!v.getLsbD bit.toNat) false true s.fC

/-- `RLCA` (R211). -/
def execRlca (s : State) : Result := done 1 (s.setAcc (rotateAOut .rlc s.a s.fC))

/-- `RRCA` (R212). -/
def execRrca (s : State) : Result := done 1 (s.setAcc (rotateAOut .rrc s.a s.fC))

/-- `RLA` (R213). -/
def execRla (s : State) : Result := done 1 (s.setAcc (rotateAOut .rl s.a s.fC))

/-- `RRA` (R214). -/
def execRra (s : State) : Result := done 1 (s.setAcc (rotateAOut .rr s.a s.fC))

/-- `RLC r` (R215). -/
def execRlcR (dst : R8) (s : State) : Result := shiftReg .rlc dst s

/-- `RLC (HL)` (R216). -/
def execRlcM (s : State) : Result := shiftMem .rlc s

/-- `RRC r` (R217). -/
def execRrcR (dst : R8) (s : State) : Result := shiftReg .rrc dst s

/-- `RRC (HL)` (R218). -/
def execRrcM (s : State) : Result := shiftMem .rrc s

/-- `RL r` (R219). -/
def execRlR (dst : R8) (s : State) : Result := shiftReg .rl dst s

/-- `RL (HL)` (R220). -/
def execRlM (s : State) : Result := shiftMem .rl s

/-- `RR r` (R221). -/
def execRrR (dst : R8) (s : State) : Result := shiftReg .rr dst s

/-- `RR (HL)` (R222). -/
def execRrM (s : State) : Result := shiftMem .rr s

/-- `SLA r` (R223). -/
def execSlaR (dst : R8) (s : State) : Result := shiftReg .sla dst s

/-- `SLA (HL)` (R224). -/
def execSlaM (s : State) : Result := shiftMem .sla s

/-- `SRA r` (R225). -/
def execSraR (dst : R8) (s : State) : Result := shiftReg .sra dst s

/-- `SRA (HL)` (R226). -/
def execSraM (s : State) : Result := shiftMem .sra s

/-- `SWAP r` (R227). -/
def execSwapR (dst : R8) (s : State) : Result := shiftReg .swap dst s

/-- `SWAP (HL)` (R228). -/
def execSwapM (s : State) : Result := shiftMem .swap s

/-- `SRL r` (R229). -/
def execSrlR (dst : R8) (s : State) : Result := shiftReg .srl dst s

/-- `SRL (HL)` (R230). -/
def execSrlM (s : State) : Result := shiftMem .srl s

/-- `BIT b,r` (R231). -/
def execBitR (bit : BitVec 3) (reg : R8) (s : State) : Result := done 2 (testBit (s.reg reg) bit s)

/-- `BIT b,(HL)` (R232): no write is issued. -/
def execBitM (bit : BitVec 3) (s : State) : Result := done 3 (testBit s.atHl bit s)

/-- `RES b,r` (R233). -/
def execResR (bit : BitVec 3) (reg : R8) (s : State) : Result := done 2 (s.setReg reg (clearBit (s.reg reg) bit))

/-- `RES b,(HL)` (R234). -/
def execResM (bit : BitVec 3) (s : State) : Result := done 4 (s.setAtHl (clearBit s.atHl bit))

/-- `SET b,r` (R235). -/
def execSetR (bit : BitVec 3) (reg : R8) (s : State) : Result := done 2 (s.setReg reg (setBit (s.reg reg) bit))

/-- `SET b,(HL)` (R236). -/
def execSetM (bit : BitVec 3) (s : State) : Result := done 4 (s.setAtHl (setBit s.atHl bit))

end Sys2Proof.Machine
end

