-- ==== Sys2Proof/Machine/Control.lean ====
section
/-! DEFINITION. Control instructions (46_misc_control.md R340 to R345) and the undefined first-page bytes
(60_exceptions.md R362). -/

namespace Sys2Proof.Machine

/-- `NOP` (R340). -/
def execNop (s : State) : Result := done 1 s

/-- `HALT` (R341). -/
def execHalt (s : State) : Result := done 1 { s with halted := true }

/-- `STOP` (R342): the pad byte is ignored. -/
def execStop (_pad : Byte) (s : State) : Result := done 1 { s with stopped := true }

/-- `DI` (R343). -/
def execDi (s : State) : Result := done 1 { s with ime := false, eiPending := false }

/-- `EI` (R344): IME is not changed by this instruction. -/
def execEi (s : State) : Result := done 1 { s with eiPending := true }

/-- The undefined byte 0xD3 raises UnknownOpcode (R362). -/
def execIllegalD3 (s : State) : Result := raiseUnknownOpcode 0xD3 s

/-- The undefined byte 0xDB raises UnknownOpcode (R362). -/
def execIllegalDB (s : State) : Result := raiseUnknownOpcode 0xDB s

/-- The undefined byte 0xDD raises UnknownOpcode (R362). -/
def execIllegalDD (s : State) : Result := raiseUnknownOpcode 0xDD s

/-- The undefined byte 0xE3 raises UnknownOpcode (R362). -/
def execIllegalE3 (s : State) : Result := raiseUnknownOpcode 0xE3 s

/-- The undefined byte 0xE4 raises UnknownOpcode (R362). -/
def execIllegalE4 (s : State) : Result := raiseUnknownOpcode 0xE4 s

/-- The undefined byte 0xEB raises UnknownOpcode (R362). -/
def execIllegalEB (s : State) : Result := raiseUnknownOpcode 0xEB s

/-- The undefined byte 0xEC raises UnknownOpcode (R362). -/
def execIllegalEC (s : State) : Result := raiseUnknownOpcode 0xEC s

/-- The undefined byte 0xED raises UnknownOpcode (R362). -/
def execIllegalED (s : State) : Result := raiseUnknownOpcode 0xED s

/-- The undefined byte 0xF4 raises UnknownOpcode (R362). -/
def execIllegalF4 (s : State) : Result := raiseUnknownOpcode 0xF4 s

/-- The undefined byte 0xFC raises UnknownOpcode (R362). -/
def execIllegalFC (s : State) : Result := raiseUnknownOpcode 0xFC s

/-- The undefined byte 0xFD raises UnknownOpcode (R362). -/
def execIllegalFD (s : State) : Result := raiseUnknownOpcode 0xFD s

/-- `PREFIX CB` (R345): decode the second byte with the second-page table and execute the rule it selects; the prefix
has no effect or cost of its own. -/
def execPrefixCB (second : Byte) (s : State) : Result :=
  match decodeCb second with
  | .shiftR .rlc r => execRlcR r s
  | .shiftM .rlc => execRlcM s
  | .shiftR .rrc r => execRrcR r s
  | .shiftM .rrc => execRrcM s
  | .shiftR .rl r => execRlR r s
  | .shiftM .rl => execRlM s
  | .shiftR .rr r => execRrR r s
  | .shiftM .rr => execRrM s
  | .shiftR .sla r => execSlaR r s
  | .shiftM .sla => execSlaM s
  | .shiftR .sra r => execSraR r s
  | .shiftM .sra => execSraM s
  | .shiftR .swap r => execSwapR r s
  | .shiftM .swap => execSwapM s
  | .shiftR .srl r => execSrlR r s
  | .shiftM .srl => execSrlM s
  | .bitR n r => execBitR n r s
  | .bitM n => execBitM n s
  | .resR n r => execResR n r s
  | .resM n => execResM n s
  | .setR n r => execSetR n r s
  | .setM n => execSetM n s

end Sys2Proof.Machine
end

