-- ==== Sys2Proof/Machine/Jumps.lean ====
section
/-! DEFINITION. Jumps, calls, returns and restarts (42_jumps.md R250 to R262). On entry PC is the address of the byte
after the instruction (10_state.md R25). -/

namespace Sys2Proof.Machine

/-- `pc <- (PC + sext_16(e8)) mod 65536` (R254). -/
def State.jumpRelative (s : State) (e8 : Byte) : State := s.jump (s.pc + sext16 e8)

/-- `JP a16` (R251). -/
def execJp (a16 : Word) (s : State) : Result := done 4 (s.jump a16)

/-- `JP cc,a16` (R252). -/
def execJpCc (cc : Cond) (a16 : Word) (s : State) : Result := if s.cond cc then done 4 (s.jump a16) else done 3 s

/-- `JP HL` (R253): the target is the value of HL. -/
def execJpHl (s : State) : Result := done 1 (s.jump s.hl)

/-- `JR e8` (R254). -/
def execJr (e8 : Byte) (s : State) : Result := done 3 (s.jumpRelative e8)

/-- `JR cc,e8` (R255). -/
def execJrCc (cc : Cond) (e8 : Byte) (s : State) : Result := if s.cond cc then done 3 (s.jumpRelative e8) else done 2 s

/-- `CALL a16` (R256). -/
def execCall (a16 : Word) (s : State) : Result := done 6 (s.callTo a16)

/-- `CALL cc,a16` (R257). -/
def execCallCc (cc : Cond) (a16 : Word) (s : State) : Result := if s.cond cc then done 6 (s.callTo a16) else done 3 s

/-- `RET` (R258). -/
def execRet (s : State) : Result := done 4 s.returnPop

/-- `RET cc` (R259). -/
def execRetCc (cc : Cond) (s : State) : Result := if s.cond cc then done 5 s.returnPop else done 2 s

/-- `RETI` (R260): IME becomes 1 at once. -/
def execReti (s : State) : Result := done 4 (returnFromInterrupt s)

/-- `RST n` (R261). -/
def execRst (n : BitVec 3) (s : State) : Result := done 4 (s.callTo (8 * n.zeroExtend 16))

end Sys2Proof.Machine
end

