-- ==== Sys2Proof/Machine/Loads.lean ====
section
/-! DEFINITION. Loads and stores (43_loads.md R280 to R302). No load or store writes a flag (R280). -/

namespace Sys2Proof.Machine

/-- `LD r,r'` (R281). -/
def execLdRR (dst src : R8) (s : State) : Result := done 1 (s.setReg dst (s.reg src))

/-- `LD r,n8` (R282). -/
def execLdRN (dst : R8) (n8 : Byte) (s : State) : Result := done 2 (s.setReg dst n8)

/-- `LD r,(HL)` (R283). -/
def execLdRM (dst : R8) (s : State) : Result := done 2 (s.setReg dst s.atHl)

/-- `LD (HL),r` (R284). -/
def execLdMR (src : R8) (s : State) : Result := done 2 (s.setAtHl (s.reg src))

/-- `LD (HL),n8` (R285). -/
def execLdMN (n8 : Byte) (s : State) : Result := done 3 (s.setAtHl n8)

/-- Load A from an address. -/
def State.loadA (s : State) (addr : Word) : State := { s with a := s.memRead addr }

/-- Store A to an address. -/
def State.storeA (s : State) (addr : Word) : State := s.memWrite addr s.a

/-- `LD A,(BC)` (R286). -/
def execLdABc (s : State) : Result := done 2 (s.loadA s.bc)

/-- `LD A,(DE)` (R287). -/
def execLdADe (s : State) : Result := done 2 (s.loadA s.de)

/-- `LD (BC),A` (R288). -/
def execLdBcA (s : State) : Result := done 2 (s.storeA s.bc)

/-- `LD (DE),A` (R289). -/
def execLdDeA (s : State) : Result := done 2 (s.storeA s.de)

/-- `LD A,(a16)` (R290). -/
def execLdAAbs (a16 : Word) (s : State) : Result := done 4 (s.loadA a16)

/-- `LD (a16),A` (R291). -/
def execLdAbsA (a16 : Word) (s : State) : Result := done 4 (s.storeA a16)

/-- `LDH A,(a8)` (R292). -/
def execLdhAImm (a8 : Byte) (s : State) : Result := done 3 (s.loadA (highPage a8))

/-- `LDH (a8),A` (R293). -/
def execLdhImmA (a8 : Byte) (s : State) : Result := done 3 (s.storeA (highPage a8))

/-- `LDH A,(C)` (R294). -/
def execLdhAC (s : State) : Result := done 2 (s.loadA (highPage s.c))

/-- `LDH (C),A` (R295). -/
def execLdhCA (s : State) : Result := done 2 (s.storeA (highPage s.c))

/-- `LD (HL+),A` (R296): HL is incremented even when the write is discarded. -/
def execLdHlIncA (s : State) : Result := done 2 ((s.storeA s.hl).setHl (s.hl + 1))

/-- `LD (HL-),A` (R297). -/
def execLdHlDecA (s : State) : Result := done 2 ((s.storeA s.hl).setHl (s.hl - 1))

/-- `LD A,(HL+)` (R298). -/
def execLdAHlInc (s : State) : Result := done 2 ((s.loadA s.hl).setHl (s.hl + 1))

/-- `LD A,(HL-)` (R299). -/
def execLdAHlDec (s : State) : Result := done 2 ((s.loadA s.hl).setHl (s.hl - 1))

/-- `LD rr,n16` (R300). -/
def execLdRrNn (rr : R16) (n16 : Word) (s : State) : Result := done 3 (s.setPair rr n16)

/-- `LD (a16),SP` (R301). -/
def execLdAbsSp (a16 : Word) (s : State) : Result := done 5 (s.memWriteWord a16 s.sp)

/-- `LD SP,HL` (R302). -/
def execLdSpHl (s : State) : Result := done 2 { s with sp := s.hl }

end Sys2Proof.Machine
end

