-- ==== Sys2Proof/Machine/Stack.lean ====
section
/-! DEFINITION. Stack instructions (44_stack.md R321, R322). -/

namespace Sys2Proof.Machine

/-- `PUSH rr` (R321). -/
def execPush (rr : R16Stk) (s : State) : Result := done 4 (s.push16 (s.stkPair rr))

/-- `POP rr` (R322): POP AF masks the low nibble of F. -/
def execPop (rr : R16Stk) (s : State) : Result := done 3 (s.popSp.setStkPair rr s.popValue)

end Sys2Proof.Machine
end

