-- ==== Sys2Proof/Machine/Dispatch.lean ====
section
/-! DEFINITION. The dispatch of every instruction to its meaning, one arm per constructor, in the table's order. -/

namespace Sys2Proof.Machine

def exec (i : Instr) (s : State) : Host.Outcome State Fault Refusal :=
  match i with
  | .nop => Sys2Proof.Machine.execNop s
  | .stop pad => Sys2Proof.Machine.execStop pad s
  | .halt => Sys2Proof.Machine.execHalt s
  | .di => Sys2Proof.Machine.execDi s
  | .ei => Sys2Proof.Machine.execEi s
  | .ldRR dst src => Sys2Proof.Machine.execLdRR dst src s
  | .ldRN dst n8 => Sys2Proof.Machine.execLdRN dst n8 s
  | .ldRM dst => Sys2Proof.Machine.execLdRM dst s
  | .ldMR src => Sys2Proof.Machine.execLdMR src s
  | .ldMN n8 => Sys2Proof.Machine.execLdMN n8 s
  | .ldABc => Sys2Proof.Machine.execLdABc s
  | .ldADe => Sys2Proof.Machine.execLdADe s
  | .ldBcA => Sys2Proof.Machine.execLdBcA s
  | .ldDeA => Sys2Proof.Machine.execLdDeA s
  | .ldAAbs a16 => Sys2Proof.Machine.execLdAAbs a16 s
  | .ldAbsA a16 => Sys2Proof.Machine.execLdAbsA a16 s
  | .ldhAImm a8 => Sys2Proof.Machine.execLdhAImm a8 s
  | .ldhImmA a8 => Sys2Proof.Machine.execLdhImmA a8 s
  | .ldhAC => Sys2Proof.Machine.execLdhAC s
  | .ldhCA => Sys2Proof.Machine.execLdhCA s
  | .ldHlIncA => Sys2Proof.Machine.execLdHlIncA s
  | .ldHlDecA => Sys2Proof.Machine.execLdHlDecA s
  | .ldAHlInc => Sys2Proof.Machine.execLdAHlInc s
  | .ldAHlDec => Sys2Proof.Machine.execLdAHlDec s
  | .ldRrNn rr n16 => Sys2Proof.Machine.execLdRrNn rr n16 s
  | .ldAbsSp a16 => Sys2Proof.Machine.execLdAbsSp a16 s
  | .ldSpHl => Sys2Proof.Machine.execLdSpHl s
  | .push rr => Sys2Proof.Machine.execPush rr s
  | .pop rr => Sys2Proof.Machine.execPop rr s
  | .addR src => Sys2Proof.Machine.execAddR src s
  | .addM => Sys2Proof.Machine.execAddM s
  | .addN n8 => Sys2Proof.Machine.execAddN n8 s
  | .adcR src => Sys2Proof.Machine.execAdcR src s
  | .adcM => Sys2Proof.Machine.execAdcM s
  | .adcN n8 => Sys2Proof.Machine.execAdcN n8 s
  | .subR src => Sys2Proof.Machine.execSubR src s
  | .subM => Sys2Proof.Machine.execSubM s
  | .subN n8 => Sys2Proof.Machine.execSubN n8 s
  | .sbcR src => Sys2Proof.Machine.execSbcR src s
  | .sbcM => Sys2Proof.Machine.execSbcM s
  | .sbcN n8 => Sys2Proof.Machine.execSbcN n8 s
  | .andR src => Sys2Proof.Machine.execAndR src s
  | .andM => Sys2Proof.Machine.execAndM s
  | .andN n8 => Sys2Proof.Machine.execAndN n8 s
  | .xorR src => Sys2Proof.Machine.execXorR src s
  | .xorM => Sys2Proof.Machine.execXorM s
  | .xorN n8 => Sys2Proof.Machine.execXorN n8 s
  | .orR src => Sys2Proof.Machine.execOrR src s
  | .orM => Sys2Proof.Machine.execOrM s
  | .orN n8 => Sys2Proof.Machine.execOrN n8 s
  | .cpR src => Sys2Proof.Machine.execCpR src s
  | .cpM => Sys2Proof.Machine.execCpM s
  | .cpN n8 => Sys2Proof.Machine.execCpN n8 s
  | .incR dst => Sys2Proof.Machine.execIncR dst s
  | .incM => Sys2Proof.Machine.execIncM s
  | .decR dst => Sys2Proof.Machine.execDecR dst s
  | .decM => Sys2Proof.Machine.execDecM s
  | .daa => Sys2Proof.Machine.execDaa s
  | .cpl => Sys2Proof.Machine.execCpl s
  | .scf => Sys2Proof.Machine.execScf s
  | .ccf => Sys2Proof.Machine.execCcf s
  | .addHlRr rr => Sys2Proof.Machine.execAddHlRr rr s
  | .incRr rr => Sys2Proof.Machine.execIncRr rr s
  | .decRr rr => Sys2Proof.Machine.execDecRr rr s
  | .addSpE e8 => Sys2Proof.Machine.execAddSpE e8 s
  | .ldHlSpE e8 => Sys2Proof.Machine.execLdHlSpE e8 s
  | .rlca => Sys2Proof.Machine.execRlca s
  | .rrca => Sys2Proof.Machine.execRrca s
  | .rla => Sys2Proof.Machine.execRla s
  | .rra => Sys2Proof.Machine.execRra s
  | .jp a16 => Sys2Proof.Machine.execJp a16 s
  | .jpCc cc a16 => Sys2Proof.Machine.execJpCc cc a16 s
  | .jpHl => Sys2Proof.Machine.execJpHl s
  | .jr e8 => Sys2Proof.Machine.execJr e8 s
  | .jrCc cc e8 => Sys2Proof.Machine.execJrCc cc e8 s
  | .call a16 => Sys2Proof.Machine.execCall a16 s
  | .callCc cc a16 => Sys2Proof.Machine.execCallCc cc a16 s
  | .ret => Sys2Proof.Machine.execRet s
  | .retCc cc => Sys2Proof.Machine.execRetCc cc s
  | .reti => Sys2Proof.Machine.execReti s
  | .rst n => Sys2Proof.Machine.execRst n s
  | .illegalD3 => Sys2Proof.Machine.execIllegalD3 s
  | .illegalDB => Sys2Proof.Machine.execIllegalDB s
  | .illegalDD => Sys2Proof.Machine.execIllegalDD s
  | .illegalE3 => Sys2Proof.Machine.execIllegalE3 s
  | .illegalE4 => Sys2Proof.Machine.execIllegalE4 s
  | .illegalEB => Sys2Proof.Machine.execIllegalEB s
  | .illegalEC => Sys2Proof.Machine.execIllegalEC s
  | .illegalED => Sys2Proof.Machine.execIllegalED s
  | .illegalF4 => Sys2Proof.Machine.execIllegalF4 s
  | .illegalFC => Sys2Proof.Machine.execIllegalFC s
  | .illegalFD => Sys2Proof.Machine.execIllegalFD s
  | .prefixCB second => Sys2Proof.Machine.execPrefixCB second s
  | .rlcR dst => Sys2Proof.Machine.execRlcR dst s
  | .rlcM => Sys2Proof.Machine.execRlcM s
  | .rrcR dst => Sys2Proof.Machine.execRrcR dst s
  | .rrcM => Sys2Proof.Machine.execRrcM s
  | .rlR dst => Sys2Proof.Machine.execRlR dst s
  | .rlM => Sys2Proof.Machine.execRlM s
  | .rrR dst => Sys2Proof.Machine.execRrR dst s
  | .rrM => Sys2Proof.Machine.execRrM s
  | .slaR dst => Sys2Proof.Machine.execSlaR dst s
  | .slaM => Sys2Proof.Machine.execSlaM s
  | .sraR dst => Sys2Proof.Machine.execSraR dst s
  | .sraM => Sys2Proof.Machine.execSraM s
  | .swapR dst => Sys2Proof.Machine.execSwapR dst s
  | .swapM => Sys2Proof.Machine.execSwapM s
  | .srlR dst => Sys2Proof.Machine.execSrlR dst s
  | .srlM => Sys2Proof.Machine.execSrlM s
  | .bitR bit reg => Sys2Proof.Machine.execBitR bit reg s
  | .bitM bit => Sys2Proof.Machine.execBitM bit s
  | .resR bit reg => Sys2Proof.Machine.execResR bit reg s
  | .resM bit => Sys2Proof.Machine.execResM bit s
  | .setR bit reg => Sys2Proof.Machine.execSetR bit reg s
  | .setM bit => Sys2Proof.Machine.execSetM bit s

end Sys2Proof.Machine
end

