-- ==== Sys2Proof/Machine/Ppu.lean ====
section
/-! DEFINITION. The PPU (60_exceptions.md R400 to R408): the mode machine, LY and the coincidence bit, and the
background-only scanline renderer. -/

namespace Sys2Proof.Machine

/-- The mode's number in STAT[1:0] (R400). -/
def PpuMode.number : PpuMode → Byte
  | .hBlank => 0
  | .vBlank => 1
  | .oamScan => 2
  | .pixelTransfer => 3

/-- Emit an event toward the display sink (10_state.md R38). -/
def State.emit (s : State) (evs : List DisplayEvent) : State := { s with events := s.events ++ evs }

/-- Whether entering a mode requests LCD-STAT, for the STAT value read before the mode bits are rewritten (R401,
92_eei_decisions.md D18); pixel-transfer has no enable bit. -/
def modeIrqEnabled (m : PpuMode) (stat : Byte) : Bool :=
  match m with
  | .hBlank => stat.getLsbD 3
  | .vBlank => stat.getLsbD 4
  | .oamScan => stat.getLsbD 5
  | .pixelTransfer => false

/-- `EnterMode(m)` (R401). -/
def enterMode (m : PpuMode) (s : State) : State :=
  let s1 := { s with pmode := m }
  let stat := s1.memRead addrSTAT
  let s2 := s1.memWrite addrSTAT ((stat &&& 0xFC) ||| m.number)
  if modeIrqEnabled m stat then requestInterrupt .lcdStat s2 else s2

/-- `LyAndCoincidence` (R402). -/
def lyAndCoincidence (s : State) : State :=
  let s1 := s.memWrite addrLY (BitVec.ofNat 8 s.ly)
  let stat := s1.memRead addrSTAT
  if s1.ly = (s1.memRead addrLYC).toNat then
    if stat.getLsbD 2 then s1
    else
      let s2 := s1.memWrite addrSTAT (stat ||| 0x04)
      if stat.getLsbD 6 then requestInterrupt .lcdStat s2 else s2
  else s1.memWrite addrSTAT (stat &&& 0xFB)

/-- The address of the tile's first byte: unsigned index from 0x8000 or signed index from 0x9000 (R405). -/
def tileAddress (lcdc idx : Byte) : Word :=
  if lcdc.getLsbD 4 then 0x8000 + idx.zeroExtend 16 * 16 else 0x9000 + sext16 idx * 16

/-- The shade of pixel `x` of scanline `y` (R405). -/
def pixelShade (s : State) (y x : Nat) : Shade :=
  let lcdc := s.memRead addrLCDC
  let bgp := s.memRead addrBGP
  if lcdc.getLsbD 0 then
    let wx : Byte := BitVec.ofNat 8 x + s.memRead addrSCX
    let wy : Byte := BitVec.ofNat 8 y + s.memRead addrSCY
    let map : Word := if lcdc.getLsbD 3 then 0x9C00 else 0x9800
    let idx := s.memRead (map + BitVec.ofNat 16 (wy.toNat / 8 * 32 + wx.toNat / 8))
    let row := tileAddress lcdc idx + BitVec.ofNat 16 (wy.toNat % 8 * 2)
    let lo := s.memRead row
    let hi := s.memRead (row + 1)
    let bit := 7 - wx.toNat % 8
    let colour := (hi.getLsbD bit).toNat * 2 + (lo.getLsbD bit).toNat
    bgp.extractLsb' (2 * colour) 2
  else 0

/-- `RenderScanline(y)` (R405): 160 SetPixel events, x ascending. -/
def renderScanline (y : Nat) (s : State) : State :=
  s.emit ((List.range 160).map fun x => .setPixel x y (pixelShade s y x))

/-- The end of OAM-scan and of pixel-transfer, of h-blank and of v-blank, on the advanced counter (R400, R404). -/
def ppuAdvance (s : State) : State :=
  match s.pmode with
  | .oamScan => if s.pcnt = 80 then enterMode .pixelTransfer { s with pcnt := 0 } else s
  | .pixelTransfer =>
    if s.pcnt = 172 then enterMode .hBlank (renderScanline s.ly { s with pcnt := 0 }) else s
  | .hBlank =>
    if s.pcnt = 204 then
      let s1 := { s with pcnt := 0, ly := s.ly + 1 }
      if s1.ly = 144 then (requestInterrupt .vBlank (enterMode .vBlank s1)).emit [.repaint]
      else enterMode .oamScan s1
    else s
  | .vBlank =>
    if s.pcnt = 4560 then enterMode .oamScan { s with pcnt := 0, ly := 0 }
    else if s.pcnt % 456 = 0 then { s with ly := s.ly + 1 }
    else s

/-- `PpuStep` (R400). -/
def ppuStep (s : State) : State := lyAndCoincidence (ppuAdvance { s with pcnt := s.pcnt + 1 })

end Sys2Proof.Machine
end

