-- ==== Sys2Proof/Machine/Timer.lean ====
section
/-! DEFINITION. The timer (60_exceptions.md R390 to R392). -/

namespace Sys2Proof.Machine

/-- The counter bit a TAC clock select names: 9, 3, 5, 7 for 0, 1, 2, 3 (R390, 10_state.md R49). -/
def timerBit (select : BitVec 2) : Nat :=
  match select.toNat with
  | 0 => 9
  | 1 => 3
  | 2 => 5
  | _ => 7

/-- Action (1): resolve the overflow latched on the previous tick. -/
def timerReload (s : State) : State :=
  if s.tov then { requestInterrupt .timer (s.memWrite addrTIMA (s.memRead addrTMA)) with tov := false } else s

/-- Actions (2) and (3): advance the counter and mirror its top byte into DIV. -/
def timerAdvance (s : State) : State :=
  let s1 := { s with tcount := s.tcount + 1 }
  s1.memWrite addrDIV (hiByte s1.tcount)

/-- Action (4): the selected counter bit, gated by TAC[2]. -/
def timerSample (s : State) : Bool :=
  let tac := s.memRead addrTAC
  s.tcount.getLsbD (timerBit (tac.extractLsb' 0 2)) && tac.getLsbD 2

/-- The increment of TIMA on a falling edge; a wrap past 0xFF is latched. -/
def timerIncrement (s : State) : State :=
  let t := s.memRead addrTIMA
  if t = 0xFF then { s.memWrite addrTIMA 0x00 with tov := true } else s.memWrite addrTIMA (t + 1)

/-- Action (5): a falling edge of the sampled bit, then remember the sample. -/
def timerEdge (s : State) : State :=
  let cur := timerSample s
  let s1 := if s.tprev && !cur then timerIncrement s else s
  { s1 with tprev := cur }

/-- `TimerTick` (R390). -/
def timerTick (s : State) : State := timerEdge (timerAdvance (timerReload s))

end Sys2Proof.Machine
end

