-- ==== Sys2Proof/Machine/Cycle.lean ====
section
/-! DEFINITION. The Step (60_exceptions.md R380, R381): wake, interrupt test, fetch and execution or one halted cycle, then
the forwarded ticks. -/

namespace Sys2Proof.Machine

/-- The machine is in a final state: a fault is recorded or STOP has run (R380, R383). -/
def State.stuck (s : State) : Bool := s.fault.isSome || s.stopped

/-- `if halted == 1 and pend != 0: halted <- 0` (R380). -/
def wake (s : State) : State := if s.halted && pendingEnabled s != 0 then { s with halted := false } else s

/-- The instruction at PC, its bytes read at PC and the two addresses after it (30_encoding.md R120). Reading a byte that
the format has no use for changes nothing (20_memory.md R86; log 12). -/
def fetchInstr (s : State) : Instr := decodeBytes (s.memRead s.pc) (s.memRead (s.pc + 1)) (s.memRead (s.pc + 2))

/-- PC after the fetch: one further for each byte of the instruction, modulo 65536 (10_state.md R25, R26). -/
def fetchAdvance (s : State) : State := { s with pc := s.pc + BitVec.ofNat 16 (opLength (s.memRead s.pc)) }

/-- `if p == 1 and ei_pending == 1: IME <- 1; ei_pending <- 0` (R380), unless the instruction raised a fault, which ends
the Step at once (R361). The instruction may be the first of a handler, entered between EI and it (DESIGN CHOICE, log
16). -/
def promoteEi (before : Bool) (s : State) : State :=
  if before && s.eiPending && s.fault.isNone then { s with ime := true, eiPending := false } else s

/-- Fetch, decode and execute one instruction, with the EI delay (R380). -/
def runInstruction (s : State) : Result :=
  match exec (fetchInstr s) (fetchAdvance s) with
  | .next t => .next (promoteEi s.eiPending t)
  | .fault r => .fault r
  | .refused r => .refused r

/-- The CPU part of a Step: a dispatch, a halted cycle or an instruction (R380). -/
def cpuPart (s : State) : Result :=
  let pend := pendingEnabled s
  let s1 := wake s
  if s1.ime && pend != 0 then .next (dispatchInterrupt (lowestPending pend) s1)
  else if s1.halted then done 1 s1
  else runInstruction s1

/-- One forwarded tick: the timer, then the PPU (R381). -/
def tick (s : State) : State := ppuStep (timerTick s)

/-- `n` forwarded ticks. -/
def forwardTicks : Nat → State → State
  | 0, s => s
  | n + 1, s => forwardTicks n (tick s)

/-- `Step` (R380) of a machine with the given parameters. The cost of the CPU part is what it added to `cycles` (log 6);
a raised fault adds nothing, so it forwards no tick (R361). -/
def stepWith (cfg : Config) (s : State) : Result :=
  if s.stuck then .next s
  else
    match cpuPart s with
    | .next t => .next (forwardTicks ((t.cycles - s.cycles) * cfg.ticksPerCycle) t)
    | .fault r => .fault r
    | .refused r => .refused r

end Sys2Proof.Machine
end

