-- ==== Sys2Proof/Machine/Step.lean ====
section
/-! DEFINITION. The step of the machine, and where a word is put so that the next step runs it. -/

namespace Sys2Proof.Machine

/-- One Step (60_exceptions.md R380) with the parameters of 00_scope.md R7. -/
def step (s : State) : Host.Outcome State Fault Refusal := stepWith Config.standard s

/-- The bytes of a table word, placed at PC without regard to write protection, as the ROM loader places an image
(20_memory.md R87; log 2). -/
def State.withFetchWord (s : State) (nbits w : Nat) : State := { s with mem := s.mem.place s.pc (tableBytes nbits w) }

end Sys2Proof.Machine
end

