-- ==== Sys2Proof/Machine/HostMoves.lean ====
section
/-! DEFINITION. The host's moves other than Step (60_exceptions.md R382) and what the host makes of the block's output
(R407): Reset with a ROM image, RequestInterrupt between Steps, the sink's frame buffer and colours, the fault's code. -/

namespace Sys2Proof.Machine

/-- The longest ROM image (20_memory.md R87). -/
def romCapacity : Nat := 32768

/-- `Reset(ROM_IMAGE)` (70_reset_and_hazards.md R440): the state of 10_state.md R60 to R65, with the image at 0x0000
upward, placed without regard to write protection; a longer image is refused (20_memory.md R87). -/
def hostReset (cfg : Config) (romImage : List Byte) : Result :=
  if romImage.length ≤ romCapacity then
    .next { State.powerOn cfg with mem := Memory.place [] 0x0000 romImage }
  else .refused (.romImageTooLong romImage.length)

/-- The host's `RequestInterrupt(k)` between Steps (R382). -/
def hostRequestInterrupt (k : Irq) (s : State) : State := requestInterrupt k s

/-- The cause code of a fault (R360; log 10). -/
def Fault.causeCode : Fault → Nat
  | .unknownOpcode _ _ => 1
  | .invalidAddress => 2
  | .invalidArgument => 3

/-- The sink's `fb[y][x]` (10_state.md R38): the shade the last SetPixel gave that place, none before the first. -/
def frameBuffer : List DisplayEvent → Nat → Nat → Option Shade
  | [], _, _ => none
  | .repaint :: evs, y, x => frameBuffer evs y x
  | .setPixel px py shade :: evs, y, x =>
    match frameBuffer evs y x with
    | some later => some later
    | none => if px = x ∧ py = y then some shade else none

/-- The call of the sink an event stands for (R407): `setPixel(x, y, color, repaint?)` with the host's colour and a false
repaint argument, or `repaint()`; `clear()` is never called. -/
inductive SinkCall where
  | setPixel (x y : Nat) (colour : Byte × Byte × Byte) (repaint : Bool)
  | repaint
  deriving DecidableEq, Repr

/-- The sink call of an event. -/
def DisplayEvent.toSink : DisplayEvent → SinkCall
  | .setPixel x y shade => .setPixel x y (Config.shadeRgb shade) false
  | .repaint => .repaint

end Sys2Proof.Machine
end

