-- ==== Sys2Proof/Safety.lean ====
section
/-! DEFINITION. What counts as a safe state and the terms the statements are written in: the invariants of
70_reset_and_hazards.md R442, the two halves of the state, running states, what it is for an instruction to complete, what
it leaves alone, and the results of the rules written over the integers. -/

namespace Sys2Proof

/-- The byte of an undefined first-page row (30_encoding.md R134); none for an instruction. -/
def Instr.undefinedOpcode : Instr → Option Byte
  | .illegalD3 => some 0xD3
  | .illegalDB => some 0xDB
  | .illegalDD => some 0xDD
  | .illegalE3 => some 0xE3
  | .illegalE4 => some 0xE4
  | .illegalEB => some 0xEB
  | .illegalEC => some 0xEC
  | .illegalED => some 0xED
  | .illegalF4 => some 0xF4
  | .illegalFC => some 0xFC
  | .illegalFD => some 0xFD
  | _ => none

/-- The cost of an instruction, the table of 70_reset_and_hazards.md R446; `taken` says which conditions hold. An
undefined byte costs nothing (60_exceptions.md R361), and the bare prefix is no instruction (log 5). -/
def Instr.cost (taken : Cond → Bool) : Instr → Nat
  | .nop | .halt | .stop _ | .di | .ei => 1
  | .ldRR _ _ | .incR _ | .decR _ => 1
  | .addR _ | .adcR _ | .subR _ | .sbcR _ | .andR _ | .xorR _ | .orR _ | .cpR _ => 1
  | .rlca | .rrca | .rla | .rra | .daa | .cpl | .scf | .ccf | .jpHl => 1
  | .ldRN _ _ | .ldRM _ | .ldMR _ | .ldABc | .ldADe | .ldBcA | .ldDeA => 2
  | .ldHlIncA | .ldHlDecA | .ldAHlInc | .ldAHlDec | .ldhAC | .ldhCA | .ldSpHl => 2
  | .incRr _ | .decRr _ | .addHlRr _ => 2
  | .addM | .adcM | .subM | .sbcM | .andM | .xorM | .orM | .cpM => 2
  | .addN _ | .adcN _ | .subN _ | .sbcN _ | .andN _ | .xorN _ | .orN _ | .cpN _ => 2
  | .rlcR _ | .rrcR _ | .rlR _ | .rrR _ | .slaR _ | .sraR _ | .swapR _ | .srlR _ => 2
  | .bitR _ _ | .resR _ _ | .setR _ _ => 2
  | .ldRrNn _ _ | .ldMN _ | .incM | .decM | .ldhAImm _ | .ldhImmA _ | .ldHlSpE _ | .pop _ | .jr _ | .bitM _ => 3
  | .ldAAbs _ | .ldAbsA _ | .addSpE _ | .push _ | .jp _ | .ret | .reti | .rst _ => 4
  | .rlcM | .rrcM | .rlM | .rrM | .slaM | .sraM | .swapM | .srlM | .resM _ | .setM _ => 4
  | .ldAbsSp _ => 5
  | .call _ => 6
  | .jpCc cc _ => if taken cc then 4 else 3
  | .jrCc cc _ => if taken cc then 3 else 2
  | .callCc cc _ => if taken cc then 6 else 3
  | .retCc cc => if taken cc then 5 else 2
  | .illegalD3 | .illegalDB | .illegalDD | .illegalE3 | .illegalE4 | .illegalEB | .illegalEC | .illegalED => 0
  | .illegalF4 | .illegalFC | .illegalFD => 0
  | .prefixCB _ => 0

/-- The eleven undefined first-page bytes (30_encoding.md R134). -/
def undefinedBytes : List Byte := [0xD3, 0xDB, 0xDD, 0xE3, 0xE4, 0xEB, 0xEC, 0xED, 0xF4, 0xFC, 0xFD]

/-- The result byte of a rotate, shift or SWAP of a byte `v` with carry-in `c` (41_bit_manipulation.md R210). -/
def ShiftOp.result (op : ShiftOp) (v c : Nat) : Nat :=
  match op with
  | .rlc => 2 * v % 256 + v / 128
  | .rrc => v / 2 + 128 * (v % 2)
  | .rl => 2 * v % 256 + c
  | .rr => v / 2 + 128 * c
  | .sla => 2 * v % 256
  | .sra => v / 2 + 128 * (v / 128)
  | .swap => 16 * (v % 16) + v / 16
  | .srl => v / 2

/-- Its carry-out (R210). -/
def ShiftOp.carryOut (op : ShiftOp) (v : Nat) : Prop :=
  match op with
  | .rlc | .rl | .sla => v ≥ 128
  | .rrc | .rr | .sra | .srl => v % 2 = 1
  | .swap => False

end Sys2Proof

namespace Sys2Proof.Machine

/-! ### Invariants (R442) -/

/-- R442 (a): the low nibble of F is zero. -/
abbrev State.FlagsClean (s : State) : Prop := s.f &&& 0x0F = 0

/-- R442 (b), (c): in each mode the counter is below the mode's threshold and the scanline index is in its range; in
v-blank the index follows the counter. -/
def State.PpuInRange (s : State) : Prop :=
  match s.pmode with
  | .oamScan => s.ly < 144 ∧ s.pcnt < 80
  | .pixelTransfer => s.ly < 144 ∧ s.pcnt < 172
  | .hBlank => s.ly < 144 ∧ s.pcnt < 204
  | .vBlank => s.pcnt < 4560 ∧ s.ly = 144 + s.pcnt / 456

/-- R442 (d): a latched overflow implies a clear previous sample. -/
abbrev State.TimerConsistent (s : State) : Prop := s.tov = true → s.tprev = false

/-- The invariant of the machine: R442 (a) to (d), and memory in its canonical form. -/
structure State.Inv (s : State) : Prop where
  flags : s.FlagsClean
  ppu : s.PpuInRange
  timer : s.TimerConsistent
  mem : s.mem.wf = true

/-! ### The two halves of the state outside memory -/

/-- The timer, PPU and display half (10_state.md R36 to R38). -/
structure Devices where
  tcount : Word
  tov : Bool
  tprev : Bool
  pmode : PpuMode
  ly : Nat
  pcnt : Nat
  events : List DisplayEvent
  deriving DecidableEq, Repr

/-- The device half of a state. -/
def State.devices (s : State) : Devices := ⟨s.tcount, s.tov, s.tprev, s.pmode, s.ly, s.pcnt, s.events⟩

/-- The CPU half (10_state.md R20 to R33). -/
structure Cpu where
  a : Byte
  f : Byte
  b : Byte
  c : Byte
  d : Byte
  e : Byte
  h : Byte
  l : Byte
  pc : Word
  sp : Word
  ime : Bool
  eiPending : Bool
  halted : Bool
  stopped : Bool
  fault : Option Fault
  cycles : Nat
  deriving DecidableEq, Repr

/-- The CPU half of a state. -/
def State.cpu (s : State) : Cpu :=
  ⟨s.a, s.f, s.b, s.c, s.d, s.e, s.h, s.l, s.pc, s.sp, s.ime, s.eiPending, s.halted, s.stopped, s.fault, s.cycles⟩

/-- Every byte outside the given addresses reads as before. -/
def SameBytesExcept (written : List Word) (s t : State) : Prop := ∀ x : Word, x ∉ written → t.memRead x = s.memRead x

/-- What an instruction leaves alone that moves no PC and no SP: every 8-bit register but the named ones, every byte
outside the given addresses, and PC, SP, the control state, the fault and the device half whole. F is said by the flags. -/
def Frame (regs : List R8) (stored : List Word) (s t : State) : Prop :=
  (∀ q : R8, q ∉ regs → t.reg q = s.reg q) ∧ SameBytesExcept stored s t ∧
    t = { s with
      a := t.a, b := t.b, c := t.c, d := t.d, e := t.e, h := t.h, l := t.l, f := t.f, cycles := t.cycles, mem := t.mem }

/-- A byte was written to an address: a protected address keeps what it had (20_memory.md R82, R85). -/
def Stored (x : Word) (v : Byte) (s t : State) : Prop := t.memRead x = if writeProtected x then s.memRead x else v

/-- A word was pushed, its high byte at SP - 1 and its low byte at SP - 2; nothing but memory, SP and what the
instruction itself says may differ (44_stack.md R320). -/
def Pushed (hi lo : Byte) (s t : State) : Prop :=
  t.sp = s.sp - 2 ∧ Stored (s.sp - 1) hi s t ∧ Stored (s.sp - 2) lo s t ∧ SameBytesExcept [s.sp - 1, s.sp - 2] s t

/-! ### Running, reading, completing -/

/-- The next Step executes the instruction at PC: no fault, not stopped, not halted after the wake, and no interrupt to
dispatch (60_exceptions.md R380). -/
def State.Running (s : State) : Prop :=
  s.stuck = false ∧ (s.halted = true → pendingEnabled s ≠ 0) ∧ ¬ (s.ime = true ∧ pendingEnabled s ≠ 0)

/-- The bytes decode to the instruction, whatever follows them. -/
def Reads (bytes : List Byte) (i : Instr) : Prop := ∀ rest : List Byte, decode (bytes ++ rest) = .ok (i, rest)

/-- The bytes decode to the instruction, and it completes at `s` with the cost and a state that meets `post`. -/
def Completes (i : Instr) (bytes : List Byte) (cost : Nat) (s : State) (post : State → Prop) : Prop :=
  Reads bytes i ∧ ∃ t, exec i s = .next t ∧ t.cycles = s.cycles + cost ∧ post t

/-- The four flags, in the order fZ fN fH fC, and the hard-wired low nibble (10_state.md R22, R23). -/
def FlagsAre (t : State) (z n h c : Prop) : Prop :=
  (t.fZ = true ↔ z) ∧ (t.fN = true ↔ n) ∧ (t.fH = true ↔ h) ∧ (t.fC = true ↔ c) ∧ t.FlagsClean

/-! ### Results in integers

The formulas of the rules over natural numbers, apart from the model's own computations on bytes. -/

/-- Addition into A of `v` and a carry-in (40_arithmetic.md R161). -/
def AddedToA (v cin : Nat) (s t : State) : Prop :=
  t.a.toNat = (s.a.toNat + v + cin) % 256 ∧
    FlagsAre t (t.a = 0) False (s.a.toNat % 16 + v % 16 + cin > 15) (s.a.toNat + v + cin > 255) ∧ Frame [.a] [] s t

/-- The flags of a subtraction from A of `v` and a borrow-in (R162). -/
def SubFlags (v cin : Nat) (s t : State) : Prop :=
  FlagsAre t (((s.a.toNat : Int) - v - cin) % 256 = 0) True ((s.a.toNat % 16 : Int) - v % 16 - cin < 0)
    ((s.a.toNat : Int) - v - cin < 0)

/-- Subtraction from A of `v` and a borrow-in (R162). -/
def SubtractedFromA (v cin : Nat) (s t : State) : Prop :=
  (t.a.toNat : Int) = ((s.a.toNat : Int) - v - cin) % 256 ∧ SubFlags v cin s t ∧ Frame [.a] [] s t

/-- A bitwise result in A: N and C are clear, H is as given (R176, R179, R182). -/
def LogicInA (v : Byte) (half : Prop) (s t : State) : Prop :=
  t.a = v ∧ FlagsAre t (v = 0) False half False ∧ Frame [.a] [] s t

/-- The flags of a second-page rotate or shift (41_bit_manipulation.md section 3). -/
def ShiftFlags (op : ShiftOp) (v c : Nat) (t : State) : Prop :=
  FlagsAre t (op.result v c = 0) False False (op.carryOut v)

/-- A second-page rotate or shift of a register. -/
def ShiftedReg (op : ShiftOp) (r : R8) (s t : State) : Prop :=
  (t.reg r).toNat = op.result (s.reg r).toNat s.fC.toNat ∧ ShiftFlags op (s.reg r).toNat s.fC.toNat t ∧ Frame [r] [] s t

/-- A second-page rotate or shift of the byte at HL; its flags are those of the byte read, stored or not. -/
def ShiftedMem (op : ShiftOp) (s t : State) : Prop :=
  Stored s.hl (BitVec.ofNat 8 (op.result s.atHl.toNat s.fC.toNat)) s t ∧ ShiftFlags op s.atHl.toNat s.fC.toNat t ∧
    Frame [] [s.hl] s t

end Sys2Proof.Machine
end

