-- ==== Sys2Proof/Certificates/Slice0/Obligations.lean ====
section
/-! DEFINITION. The statements for the provers. A statement that reads back what was stored has the premise that memory is
in its canonical form, which every Step keeps (`Obligations.StepKeepsInvariant`) and every reset establishes
(`Obligations.ResetMeetsInvariant`). PC of the state an instruction starts from is the address of the byte after it
(10_state.md R25). -/

section

open Sys2Proof Sys2Proof.Machine

/-! ### Encodings -/

/-- 30_encoding.md R120, R132, R133, R135: the encoder's bytes of any instruction the decoder can give are read back as
that instruction, with every operand at every value, and the bytes after it are left. -/
def Obligations.DecodeOfEncode : Prop :=
  ∀ (i : Instr) (rest : List Byte), i.wellFormed = true → decode (encode i ++ rest) = .ok (i, rest)

/-- The other direction: an instruction read from bytes has those bytes as its encoding, so no bit of an encoding is
dropped, and it is well formed (R122, R123, R138). -/
def Obligations.EncodeOfDecode : Prop :=
  ∀ (bytes rest : List Byte) (i : Instr), decode bytes = .ok (i, rest) → encode i ++ rest = bytes ∧ i.wellFormed = true

/-- Three bytes always hold an instruction, and it is an undefined one exactly for the eleven first bytes of R134 (R138). -/
def Obligations.DecoderTotalWithElevenUndefined : Prop :=
  ∀ (op n1 n2 : Byte) (rest : List Byte), ∃ i tail, decode (op :: n1 :: n2 :: rest) = .ok (i, tail) ∧
    i.undefinedOpcode = if op ∈ undefinedBytes then some op else none

/-- Words of 30_encoding.md, 41_bit_manipulation.md, 42_jumps.md and 43_loads.md read as the instructions they stand for. -/
def Obligations.SampleWordsDecode : Prop :=
  Reads [0x41] (.ldRR .b .c) ∧ Reads [0xCB, 0x37] (.swapR .a) ∧ Reads [0xCB, 0x7C] (.bitR 7 .h) ∧
  Reads [0xCB, 0xD8] (.setR 3 .b) ∧ Reads [0xCB, 0x86] (.resM 0) ∧ Reads [0xC3, 0x50, 0x01] (.jp 0x0150) ∧
  Reads [0xDC, 0x00, 0x20] (.callCc .c 0x2000) ∧ Reads [0x20, 0x05] (.jrCc .nz 0x05) ∧ Reads [0xEF] (.rst 5) ∧
  Reads [0x21, 0x5B, 0x3A] (.ldRrNn .hl 0x3A5B) ∧ Reads [0x76] .halt ∧ Reads [0xD3] .illegalD3

/-! ### The Step -/

/-- 60_exceptions.md R380 for a Step that executes an instruction, with one tick per cycle (log 1): the three bytes at PC
are read, the instruction they hold runs with PC past its bytes, IME takes effect one instruction after EI, and the cost
is forwarded as ticks. A core halted with an enabled interrupt pending and IME clear wakes and runs it in the same Step. -/
def Obligations.StepRunsTheDecodedInstruction : Prop :=
  ∀ (s t : State) (i : Instr) (rest : List Byte), s.Running →
    decode [s.memRead s.pc, s.memRead (s.pc + 1), s.memRead (s.pc + 2)] = .ok (i, rest) →
    exec i { s with halted := false, pc := s.pc + BitVec.ofNat 16 (3 - rest.length) } = .next t →
    step s = .next (forwardTicks (t.cycles - s.cycles)
      (if s.eiPending = true ∧ t.eiPending = true ∧ t.fault = none then { t with ime := true, eiPending := false } else t))

/-- R370 and R368: with IME set and an enabled interrupt pending, the Step is the dispatch of the kind of lowest number
`k`: IME and bit `k` of IF are cleared, PC is pushed, PC becomes `0x0040 + 8 * k`, the cost is 5. The core is not halted
then (R380). `ei_pending` is kept, which R370 says of a dispatch; against R344 (3) that is log 16. -/
def Obligations.StepDispatchesLowestInterrupt : Prop :=
  ∀ (cfg : Config) (s : State), s.stuck = false → s.ime = true →
    s.memRead 0xFF0F &&& s.memRead 0xFFFF &&& 0x1F ≠ 0 →
    ∃ k < 5, (s.memRead 0xFF0F &&& s.memRead 0xFFFF &&& 0x1F).getLsbD k = true ∧
      (∀ j < k, (s.memRead 0xFF0F &&& s.memRead 0xFFFF &&& 0x1F).getLsbD j = false) ∧
      stepWith cfg s = .next (forwardTicks (5 * cfg.ticksPerCycle)
        { ((s.memWrite 0xFF0F (s.memRead 0xFF0F &&& ~~~((1 : Byte) <<< k))).memWrite (s.sp - 1)
            (s.pc.extractLsb' 8 8)).memWrite (s.sp - 2) (s.pc.extractLsb' 0 8) with
          ime := false, halted := false, sp := s.sp - 2, pc := BitVec.ofNat 16 (0x0040 + 8 * k), cycles := s.cycles + 5 })

/-- 46_misc_control.md R341: HALT halts; a halted Step with nothing to wake it costs one cycle and fetches nothing; once an
enabled interrupt is pending the Step is that of the woken core, whatever IME is. -/
def Obligations.HaltIdlesUntilAnEnabledInterrupt : Prop :=
  (∀ s : State, Completes .halt [0x76] 1 s fun t =>
    t = { s with halted := true, cycles := t.cycles } ∧ SameBytesExcept [] s t) ∧
  (∀ (cfg : Config) (s : State), s.stuck = false → s.halted = true →
    s.memRead 0xFF0F &&& s.memRead 0xFFFF &&& 0x1F = 0 →
    stepWith cfg s = .next (forwardTicks cfg.ticksPerCycle { s with cycles := s.cycles + 1 })) ∧
  (∀ (cfg : Config) (s : State), s.stuck = false → s.halted = true →
    s.memRead 0xFF0F &&& s.memRead 0xFFFF &&& 0x1F ≠ 0 → stepWith cfg s = stepWith cfg { s with halted := false })

/-- 46_misc_control.md R344: EI itself sets `ei_pending` only; the next executed instruction ends with IME set and
`ei_pending` clear unless it was DI. With no delay pending, only RETI sets IME, only DI clears it and only EI sets
`ei_pending` (10_state.md R29, 42_jumps.md R260, 46_misc_control.md R343). That a handler's first instruction is such a next
instruction, where an interrupt is dispatched after EI, is the model's choice (log 16, DESIGN CHOICE). -/
def Obligations.EiTakesEffectAfterOneInstruction : Prop :=
  (∀ s : State, Completes .ei [0xFB] 1 s fun t =>
    t = { s with eiPending := true, cycles := t.cycles } ∧ SameBytesExcept [] s t) ∧
  (∀ (cfg : Config) (s t : State), s.Running → stepWith cfg s = .next t → t.fault = none →
    (s.eiPending = true → t.eiPending = false ∧ (t.ime = true ↔ fetchInstr s ≠ .di)) ∧
    (s.eiPending = false →
      (t.eiPending = true ↔ fetchInstr s = .ei) ∧
      (t.ime = true ↔ fetchInstr s = .reti ∨ (fetchInstr s ≠ .di ∧ s.ime = true))))

/-- 46_misc_control.md R342: STOP sets `stopped` and ignores its pad byte; a stopped machine never changes again, whatever
interrupts the host requests. -/
def Obligations.StopIsFinal : Prop :=
  (∀ (pad : Byte) (s : State), Completes (.stop pad) [0x10, pad] 1 s fun t =>
    t = { s with stopped := true, cycles := t.cycles } ∧ SameBytesExcept [] s t) ∧
  (∀ (cfg : Config) (s : State), s.stopped = true → stepWith cfg s = .next s ∧
    ∀ k, stepWith cfg (hostRequestInterrupt k s) = .next (hostRequestInterrupt k s))

/-- 60_exceptions.md R361, R362: a Step that fetches one of the eleven undefined bytes records the fault with the byte and
its address, leaves PC after the byte and changes nothing else (but wakes a halted core first, R380): no cost, no tick.
With a fault recorded no Step changes anything. -/
def Obligations.UnknownOpcodeFaultsAndSticks : Prop :=
  (∀ (cfg : Config) (s : State), s.Running → s.memRead s.pc ∈ undefinedBytes →
    stepWith cfg s = .next { s with
      pc := s.pc + 1, halted := false, fault := some (.unknownOpcode (s.memRead s.pc) s.pc) }) ∧
  (∀ (cfg : Config) (s : State), s.fault ≠ none → stepWith cfg s = .next s)

/-- The meaning of each of the eleven undefined rows is that fault, as a next state (R361, R362): PC has advanced past the
byte, which came from PC - 1 (log 13). -/
def Obligations.UndefinedRowsRecordTheirFault : Prop :=
  ∀ (s : State), ∀ p ∈ [(Instr.illegalD3, (0xD3 : Byte)), (.illegalDB, 0xDB), (.illegalDD, 0xDD), (.illegalE3, 0xE3),
      (.illegalE4, 0xE4), (.illegalEB, 0xEB), (.illegalEC, 0xEC), (.illegalED, 0xED), (.illegalF4, 0xF4),
      (.illegalFC, 0xFC), (.illegalFD, 0xFD)],
    Reads [p.2] p.1 ∧ exec p.1 s = .next { s with fault := some (.unknownOpcode p.2 (s.pc - 1)) }

/-- 60_exceptions.md section 1 (R361 to R364): every Step answers a next state, and it can record no fault but
`UnknownOpcode`, of an undefined byte at PC: `InvalidAddress` and `InvalidArgument` never arise. That a Step which raises
the fault answers a next state too, and not an outcome of its own, is the model's reading (log 4, DEDUCED). -/
def Obligations.OnlyUnknownOpcodeIsRaised : Prop :=
  ∀ (cfg : Config) (s : State), ∃ t, stepWith cfg s = .next t ∧
    (t.fault = s.fault ∨
      s.fault = none ∧ s.memRead s.pc ∈ undefinedBytes ∧ t.fault = some (.unknownOpcode (s.memRead s.pc) s.pc)) ∧
    (s.fault ≠ some .invalidAddress → t.fault ≠ some .invalidAddress) ∧
    (s.fault ≠ some .invalidArgument → t.fault ≠ some .invalidArgument)

/-- 70_reset_and_hazards.md R446: the cost of every Step that is not stuck, by the rule's table: 5 for a dispatch, 1 for a
halted Step, else the instruction's, whose only dependence is on the branch condition. -/
def Obligations.StepCosts : Prop :=
  ∀ (cfg : Config) (s t : State), s.stuck = false → stepWith cfg s = .next t →
    t.cycles = s.cycles +
      if s.ime = true ∧ pendingEnabled s ≠ 0 then 5
      else if s.halted = true ∧ pendingEnabled s = 0 then 1
      else (fetchInstr s).cost s.cond

/-- 10_state.md R70: an instruction and a dispatch leave the timer, PPU and display alone; a timer tick and a PPU step leave
the CPU and each other's state alone and write only their own bytes of memory and IF; the host's request writes only IF. -/
def Obligations.WhoWritesWhat : Prop :=
  (∀ (i : Instr) (s t : State), exec i s = .next t → t.devices = s.devices) ∧
  (∀ (k : Irq) (s : State), (dispatchInterrupt k s).devices = s.devices) ∧
  (∀ s : State, timerTick s = { s with
      tcount := (timerTick s).tcount, tov := (timerTick s).tov, tprev := (timerTick s).tprev, mem := (timerTick s).mem } ∧
    SameBytesExcept [0xFF04, 0xFF05, 0xFF0F] s (timerTick s)) ∧
  (∀ s : State, ppuStep s = { s with
      pmode := (ppuStep s).pmode, ly := (ppuStep s).ly, pcnt := (ppuStep s).pcnt, events := (ppuStep s).events,
      mem := (ppuStep s).mem } ∧
    SameBytesExcept [0xFF0F, 0xFF41, 0xFF44] s (ppuStep s)) ∧
  (∀ (k : Irq) (s : State), hostRequestInterrupt k s = { s with mem := (hostRequestInterrupt k s).mem } ∧
    SameBytesExcept [0xFF0F] s (hostRequestInterrupt k s))

/-! ### Invariants -/

/-- 70_reset_and_hazards.md R442 (a) to (d), and memory in its canonical form: every Step keeps them, from every state that
meets them. -/
def Obligations.StepKeepsInvariant : Prop := ∀ s t : State, s.Inv → step s = .next t → t.Inv

/-- The state after reset meets the invariant, for every ROM image and every configuration whose RESET_AF has a zero low
nibble (R442; 10_state.md R60 to R64); so does `State.reset`. -/
def Obligations.ResetMeetsInvariant : Prop :=
  State.reset.Inv ∧
  ∀ (cfg : Config) (rom : List Byte) (s : State), cfg.WellFormed → hostReset cfg rom = .next s → s.Inv

/-- 70_reset_and_hazards.md R442 (f), 20_memory.md R82: no Step changes a byte of the ROM regions or of the "not usable"
region. -/
def Obligations.ProtectedBytesNeverChange : Prop :=
  ∀ (cfg : Config) (s t : State) (x : Word), stepWith cfg s = .next t →
    (x.toNat ≤ 0x7FFF ∨ 0xFEA0 ≤ x.toNat ∧ x.toNat ≤ 0xFEFF) → t.memRead x = s.memRead x

/-- R442 (e), 10_state.md R44, R47: after a Step that forwarded at least one tick, LY mirrors the scanline index and DIV the
top byte of the timer's counter. -/
def Obligations.LyAndDivMirrorTheDevices : Prop :=
  ∀ (cfg : Config) (s t : State), s.mem.wf = true → 0 < cfg.ticksPerCycle → stepWith cfg s = .next t →
    t.cycles ≠ s.cycles →
    t.memRead 0xFF44 = BitVec.ofNat 8 t.ly ∧ t.memRead 0xFF04 = t.tcount.extractLsb' 8 8

/-! ### The timer -/

/-- 60_exceptions.md R390: one timer tick. -/
def Obligations.TimerTickActions : Prop :=
  ∀ s : State, s.mem.wf = true →
    let tima := if s.tov then s.memRead 0xFF06 else s.memRead 0xFF05
    let tac := s.memRead 0xFF07
    let sel := ([9, 3, 5, 7] : List Nat).getD (tac.toNat % 4) 0
    let cur := (s.tcount + 1).getLsbD sel && tac.getLsbD 2
    let edge := s.tprev && !cur
    let t := timerTick s
    t.tcount = s.tcount + 1 ∧ t.tprev = cur ∧ t.tov = (edge && tima == 0xFF) ∧
    t.memRead 0xFF04 = (s.tcount + 1).extractLsb' 8 8 ∧
    t.memRead 0xFF05 = (if edge then tima + 1 else tima) ∧
    t.memRead 0xFF0F = (if s.tov then s.memRead 0xFF0F ||| 0x04 else s.memRead 0xFF0F) ∧
    SameBytesExcept [0xFF04, 0xFF05, 0xFF0F] s t ∧
    t = { s with tcount := t.tcount, tov := t.tov, tprev := t.tprev, mem := t.mem }

/-- 60_exceptions.md R391: at the falling edge with TIMA at 0xFF, TIMA reads 0x00 and IF is as it was; the tick after that,
from any state in which the overflow is still latched (whatever the CPU wrote between), TIMA is what TMA then holds and
the TIMER bit of IF is set. -/
def Obligations.TimerReloadsOneTickLate : Prop :=
  (∀ s : State, s.mem.wf = true → s.tov = false → s.memRead 0xFF05 = 0xFF → (timerTick s).tov = true →
    (timerTick s).memRead 0xFF05 = 0x00 ∧ (timerTick s).memRead 0xFF0F = s.memRead 0xFF0F ∧ (timerTick s).tprev = false) ∧
  (∀ u : State, u.mem.wf = true → u.tov = true → u.tprev = false →
    (timerTick u).memRead 0xFF05 = u.memRead 0xFF06 ∧ (timerTick u).memRead 0xFF0F = u.memRead 0xFF0F ||| 0x04 ∧
    (timerTick u).tov = false)

/-! ### The PPU -/

/-- 60_exceptions.md R400: the mode, scanline index and counter after one PPU step, and the events it emits (R404, R405). -/
def Obligations.PpuModeMachine : Prop :=
  ∀ s : State,
    let n := s.pcnt + 1
    let t := ppuStep s
    (t.pmode, t.ly, t.pcnt) =
      (match s.pmode with
      | .oamScan => if n = 80 then (.pixelTransfer, s.ly, 0) else (.oamScan, s.ly, n)
      | .pixelTransfer => if n = 172 then (.hBlank, s.ly, 0) else (.pixelTransfer, s.ly, n)
      | .hBlank =>
        if n = 204 then (if s.ly + 1 = 144 then (.vBlank, 144, 0) else (.oamScan, s.ly + 1, 0)) else (.hBlank, s.ly, n)
      | .vBlank =>
        if n = 4560 then (.oamScan, 0, 0) else if n % 456 = 0 then (.vBlank, s.ly + 1, n) else (.vBlank, s.ly, n)) ∧
    t.events = s.events ++
      (if s.pmode = .pixelTransfer ∧ n = 172 then
        (List.range 160).map fun x => .setPixel x s.ly (pixelShade s s.ly x)
      else if s.pmode = .hBlank ∧ n = 204 ∧ s.ly + 1 = 144 then [.repaint] else [])

/-- 60_exceptions.md R401: entering a mode writes its number to STAT[1:0], keeps STAT[7:2], and requests LCD-STAT when the
enable bit of the mode entered is set. -/
def Obligations.EnteringAMode : Prop :=
  ∀ (s : State) (m : PpuMode) (number : Byte) (enable : Option Nat), s.mem.wf = true →
    (m, number, enable) ∈ [(PpuMode.hBlank, (0 : Byte), some 3), (.vBlank, 1, some 4), (.oamScan, 2, some 5),
      (.pixelTransfer, 3, none)] →
    let t := enterMode m s
    t.pmode = m ∧ t.memRead 0xFF41 = (s.memRead 0xFF41 &&& 0xFC) ||| number ∧
    t.memRead 0xFF0F = (match enable with
      | some bit => if (s.memRead 0xFF41).getLsbD bit then s.memRead 0xFF0F ||| 0x02 else s.memRead 0xFF0F
      | none => s.memRead 0xFF0F) ∧
    SameBytesExcept [0xFF41, 0xFF0F] s t ∧ t = { s with pmode := m, mem := t.mem }

/-- 60_exceptions.md R402: LY is written, the coincidence bit of STAT follows LY = LYC, and LCD-STAT is requested when it
becomes set with its enable bit set. The scanline index is in its range, which every Step keeps. -/
def Obligations.LyAndCoincidence : Prop :=
  ∀ s : State, s.mem.wf = true → s.ly ≤ 153 →
    let stat := s.memRead 0xFF41
    let same := s.ly = (s.memRead 0xFF45).toNat
    let t := lyAndCoincidence s
    t.memRead 0xFF44 = BitVec.ofNat 8 s.ly ∧
    t.memRead 0xFF41 = (if same then stat ||| 0x04 else stat &&& 0xFB) ∧
    t.memRead 0xFF0F =
      (if same ∧ stat.getLsbD 2 = false ∧ stat.getLsbD 6 = true then s.memRead 0xFF0F ||| 0x02 else s.memRead 0xFF0F) ∧
    SameBytesExcept [0xFF44, 0xFF41, 0xFF0F] s t ∧ t = { s with mem := t.mem }

/-- 60_exceptions.md R404: the PPU step that ends h-blank of line 143 enters v-blank, requests VBLANK whatever STAT holds
(and LCD-STAT by STAT[4] or a coincidence), and emits Repaint. -/
def Obligations.VBlankEntry : Prop :=
  ∀ s : State, s.mem.wf = true → s.pmode = .hBlank → s.ly = 143 → s.pcnt = 203 →
    let stat := s.memRead 0xFF41
    let t := ppuStep s
    t.pmode = .vBlank ∧ t.ly = 144 ∧ t.pcnt = 0 ∧ t.events = s.events ++ [.repaint] ∧
    t.memRead 0xFF44 = 144 ∧
    t.memRead 0xFF0F = s.memRead 0xFF0F ||| 0x01 |||
      (if stat.getLsbD 4 ∨ s.memRead 0xFF45 = 144 ∧ stat.getLsbD 2 = false ∧ stat.getLsbD 6 then 0x02 else 0)

/-- 60_exceptions.md R405: the 160 pixels of a scanline, over the integers. -/
def Obligations.ScanlinePixels : Prop :=
  ∀ (s : State) (y : Nat), y < 144 →
    let lcdc := s.memRead 0xFF40
    let shade := fun x : Nat =>
      let wx := (x + (s.memRead 0xFF43).toNat) % 256
      let wy := (y + (s.memRead 0xFF42).toNat) % 256
      let map := if lcdc.getLsbD 3 then 0x9C00 else 0x9800
      let idx := s.memRead (BitVec.ofNat 16 (map + wy / 8 * 32 + wx / 8))
      let ta : Int := if lcdc.getLsbD 4 then 0x8000 + idx.toNat * 16 else 0x9000 + idx.toInt * 16
      let lo := s.memRead (BitVec.ofInt 16 (ta + (wy % 8 : Nat) * 2))
      let hi := s.memRead (BitVec.ofInt 16 (ta + (wy % 8 : Nat) * 2 + 1))
      let bit := 7 - wx % 8
      let col := hi.toNat / 2 ^ bit % 2 * 2 + lo.toNat / 2 ^ bit % 2
      if lcdc.getLsbD 0 then (s.memRead 0xFF47).toNat / 2 ^ (2 * col) % 4 else 0
    renderScanline y s = { s with
      events := s.events ++ (List.range 160).map fun x => .setPixel x y (BitVec.ofNat 2 (shade x)) }

/-- 60_exceptions.md R403, R407: from the start of a frame, v-blank begins 65,664 ticks later, by when the frame's events
have been emitted: the 144 lines in order, the 160 pixels of each in order, then one Repaint. The next frame starts 70,224
ticks later, and v-blank emitted nothing more. The shades are those of memory at the start: ticks write no byte that a
shade depends on. -/
def Obligations.FrameTakes70224Ticks : Prop :=
  ∀ s : State, s.pmode = .oamScan → s.ly = 0 → s.pcnt = 0 →
    let u := forwardTicks 65664 s
    let t := forwardTicks 70224 s
    (u.pmode = .vBlank ∧ u.ly = 144 ∧ u.pcnt = 0) ∧ (t.pmode = .oamScan ∧ t.ly = 0 ∧ t.pcnt = 0) ∧
    u.events = s.events ++ ((List.range 144).flatMap fun y =>
      (List.range 160).map fun x => .setPixel x y (pixelShade s y x)) ++ [.repaint] ∧
    t.events = u.events

/-! ### Memory, reset and the host -/

/-- 20_memory.md R85: a write changes the addressed byte, and nothing at all in the two protected ranges; the canonical form
of memory is kept. -/
def Obligations.BusWrite : Prop :=
  ∀ (s : State) (x : Word) (v : Byte), s.mem.wf = true →
    let t := s.memWrite x v
    (x.toNat ≤ 0x7FFF ∨ 0xFEA0 ≤ x.toNat ∧ x.toNat ≤ 0xFEFF → t = s) ∧
    (¬ (x.toNat ≤ 0x7FFF ∨ 0xFEA0 ≤ x.toNat ∧ x.toNat ≤ 0xFEFF) → t.memRead x = v) ∧
    SameBytesExcept [x] s t ∧ t = { s with mem := t.mem } ∧ t.mem.wf = true

/-- 10_state.md R60, R61, R63, R64, R65: the values after reset. -/
def Obligations.ResetValues : Prop :=
  let s := State.reset
  (s.af = 0x01B0 ∧ s.bc = 0x0013 ∧ s.de = 0x00D8 ∧ s.hl = 0x014D ∧ s.sp = 0xFFFE ∧ s.pc = 0x0100) ∧
  (s.fZ = true ∧ s.fN = false ∧ s.fH = true ∧ s.fC = true) ∧
  (s.ime = false ∧ s.eiPending = false ∧ s.halted = false ∧ s.stopped = false ∧ s.fault = none ∧ s.cycles = 0) ∧
  (s.tcount = 0 ∧ s.tov = false ∧ s.tprev = false) ∧ (s.pmode = .oamScan ∧ s.ly = 0 ∧ s.pcnt = 0) ∧ s.events = []

/-- 20_memory.md R87, 10_state.md R62: Reset places the image at 0x0000 upward, protected or not, and leaves every other
byte 0x00; an image of more than 32,768 bytes is refused. -/
def Obligations.ResetPlacesTheRomImage : Prop :=
  ∀ (cfg : Config) (rom : List Byte),
    (rom.length ≤ 32768 → ∃ t, hostReset cfg rom = .next t ∧ t = { State.powerOn cfg with mem := t.mem } ∧
      ∀ x : Word, t.memRead x = rom.getD x.toNat 0x00) ∧
    (32768 < rom.length → hostReset cfg rom = .refused (.romImageTooLong rom.length))

/-- 60_exceptions.md R366: requesting an interrupt sets its bit of IF and nothing else; a second request changes nothing. -/
def Obligations.RequestSetsItsBitOfIf : Prop :=
  ∀ (s : State) (k : Irq) (n : Nat), s.mem.wf = true →
    (k, n) ∈ [(Irq.vBlank, 0), (.lcdStat, 1), (.timer, 2), (.serial, 3), (.joypad, 4)] →
    let t := requestInterrupt k s
    t.memRead 0xFF0F = s.memRead 0xFF0F ||| ((1 : Byte) <<< n) ∧ SameBytesExcept [0xFF0F] s t ∧
    t = { s with mem := t.mem } ∧ requestInterrupt k t = t

/-! ### Instructions: arithmetic and logic -/

/-- 40_arithmetic.md R164 to R169: ADD and ADC from a register, the byte at HL and an immediate. -/
def Obligations.AddAndAdc : Prop :=
  ∀ (s : State) (r : R8) (n8 : Byte),
    Completes (.addR r) [0b10000#5 ++ r.code] 1 s (AddedToA (s.reg r).toNat 0 s) ∧
    Completes .addM [0b10000110] 2 s (AddedToA (s.memRead s.hl).toNat 0 s) ∧
    Completes (.addN n8) [0b11000110, n8] 2 s (AddedToA n8.toNat 0 s) ∧
    Completes (.adcR r) [0b10001#5 ++ r.code] 1 s (AddedToA (s.reg r).toNat s.fC.toNat s) ∧
    Completes .adcM [0b10001110] 2 s (AddedToA (s.memRead s.hl).toNat s.fC.toNat s) ∧
    Completes (.adcN n8) [0b11001110, n8] 2 s (AddedToA n8.toNat s.fC.toNat s)

/-- 40_arithmetic.md R170 to R175: SUB and SBC. -/
def Obligations.SubAndSbc : Prop :=
  ∀ (s : State) (r : R8) (n8 : Byte),
    Completes (.subR r) [0b10010#5 ++ r.code] 1 s (SubtractedFromA (s.reg r).toNat 0 s) ∧
    Completes .subM [0b10010110] 2 s (SubtractedFromA (s.memRead s.hl).toNat 0 s) ∧
    Completes (.subN n8) [0b11010110, n8] 2 s (SubtractedFromA n8.toNat 0 s) ∧
    Completes (.sbcR r) [0b10011#5 ++ r.code] 1 s (SubtractedFromA (s.reg r).toNat s.fC.toNat s) ∧
    Completes .sbcM [0b10011110] 2 s (SubtractedFromA (s.memRead s.hl).toNat s.fC.toNat s) ∧
    Completes (.sbcN n8) [0b11011110, n8] 2 s (SubtractedFromA n8.toNat s.fC.toNat s)

/-- 40_arithmetic.md R185 to R187: CP writes the flags of SUB and no register but F. -/
def Obligations.CompareWritesOnlyFlags : Prop :=
  ∀ (s : State) (r : R8) (n8 : Byte),
    (Completes (.cpR r) [0b10111#5 ++ r.code] 1 s fun t => SubFlags (s.reg r).toNat 0 s t ∧ Frame [] [] s t) ∧
    (Completes .cpM [0b10111110] 2 s fun t => SubFlags (s.memRead s.hl).toNat 0 s t ∧ Frame [] [] s t) ∧
    (Completes (.cpN n8) [0b11111110, n8] 2 s fun t => SubFlags n8.toNat 0 s t ∧ Frame [] [] s t)

/-- 40_arithmetic.md R176 to R184: AND (H set), XOR and OR (H clear). -/
def Obligations.AndXorOr : Prop :=
  ∀ (s : State) (r : R8) (n8 : Byte),
    Completes (.andR r) [0b10100#5 ++ r.code] 1 s (LogicInA (s.a &&& s.reg r) True s) ∧
    Completes .andM [0b10100110] 2 s (LogicInA (s.a &&& s.memRead s.hl) True s) ∧
    Completes (.andN n8) [0b11100110, n8] 2 s (LogicInA (s.a &&& n8) True s) ∧
    Completes (.xorR r) [0b10101#5 ++ r.code] 1 s (LogicInA (s.a ^^^ s.reg r) False s) ∧
    Completes .xorM [0b10101110] 2 s (LogicInA (s.a ^^^ s.memRead s.hl) False s) ∧
    Completes (.xorN n8) [0b11101110, n8] 2 s (LogicInA (s.a ^^^ n8) False s) ∧
    Completes (.orR r) [0b10110#5 ++ r.code] 1 s (LogicInA (s.a ||| s.reg r) False s) ∧
    Completes .orM [0b10110110] 2 s (LogicInA (s.a ||| s.memRead s.hl) False s) ∧
    Completes (.orN n8) [0b11110110, n8] 2 s (LogicInA (s.a ||| n8) False s)

/-- 40_arithmetic.md R188, R190: 8-bit INC and DEC of a register; C is unchanged. -/
def Obligations.IncAndDecRegister : Prop :=
  ∀ (s : State) (r : R8),
    (Completes (.incR r) [0b00#2 ++ r.code ++ 0b100#3] 1 s fun t =>
      (t.reg r).toNat = ((s.reg r).toNat + 1) % 256 ∧
      FlagsAre t (t.reg r = 0) False ((s.reg r).toNat % 16 = 15) (s.fC = true) ∧ Frame [r] [] s t) ∧
    (Completes (.decR r) [0b00#2 ++ r.code ++ 0b101#3] 1 s fun t =>
      ((t.reg r).toNat : Int) = (((s.reg r).toNat : Int) - 1) % 256 ∧
      FlagsAre t (t.reg r = 0) True ((s.reg r).toNat % 16 = 0) (s.fC = true) ∧ Frame [r] [] s t)

/-- 40_arithmetic.md R189, R191: INC and DEC of the byte at HL; the flags are those of the value read, stored or not. -/
def Obligations.IncAndDecMemory : Prop :=
  ∀ s : State, s.mem.wf = true →
    (Completes .incM [0b00110100] 3 s fun t =>
      Stored s.hl (s.memRead s.hl + 1) s t ∧
      FlagsAre t ((s.memRead s.hl).toNat = 255) False ((s.memRead s.hl).toNat % 16 = 15) (s.fC = true) ∧
      Frame [] [s.hl] s t) ∧
    (Completes .decM [0b00110101] 3 s fun t =>
      Stored s.hl (s.memRead s.hl - 1) s t ∧
      FlagsAre t ((s.memRead s.hl).toNat = 1) True ((s.memRead s.hl).toNat % 16 = 0) (s.fC = true) ∧
      Frame [] [s.hl] s t)

/-- 40_arithmetic.md R192: decimal adjust, after an addition and after a subtraction. -/
def Obligations.DecimalAdjust : Prop :=
  ∀ s : State, Completes .daa [0b00100111] 1 s fun t =>
    let a := s.a.toNat
    (s.fN = false →
      t.a.toNat = (a + (if s.fH ∨ a % 16 > 9 then 0x06 else 0) + (if s.fC ∨ a > 0x99 then 0x60 else 0)) % 256 ∧
      FlagsAre t (t.a = 0) False False (s.fC ∨ a > 0x99)) ∧
    (s.fN = true →
      (t.a.toNat : Int) = ((a : Int) - (if s.fH then 0x06 else 0) - (if s.fC then 0x60 else 0)) % 256 ∧
      FlagsAre t (t.a = 0) True False s.fC) ∧
    Frame [.a] [] s t

/-- 40_arithmetic.md R193 to R195: CPL, SCF and CCF; Z is unchanged, and CPL leaves C. -/
def Obligations.CplScfCcf : Prop :=
  ∀ s : State,
    (Completes .cpl [0b00101111] 1 s fun t =>
      t.a = s.a ^^^ 0xFF ∧ FlagsAre t s.fZ True True s.fC ∧ Frame [.a] [] s t) ∧
    (Completes .scf [0b00110111] 1 s fun t => FlagsAre t s.fZ False False True ∧ Frame [] [] s t) ∧
    (Completes .ccf [0b00111111] 1 s fun t => FlagsAre t s.fZ False False (s.fC = false) ∧ Frame [] [] s t)

/-! ### Instructions: rotates, shifts and bits -/

/-- 41_bit_manipulation.md R211 to R214: the rotates of A clear Z. -/
def Obligations.RotatesOfA : Prop :=
  ∀ s : State,
    let rotated := fun (op : ShiftOp) (t : State) =>
      t.a.toNat = op.result s.a.toNat s.fC.toNat ∧ FlagsAre t False False False (op.carryOut s.a.toNat) ∧ Frame [.a] [] s t
    Completes .rlca [0b00000111] 1 s (rotated .rlc) ∧ Completes .rrca [0b00001111] 1 s (rotated .rrc) ∧
    Completes .rla [0b00010111] 1 s (rotated .rl) ∧ Completes .rra [0b00011111] 1 s (rotated .rr)

/-- 41_bit_manipulation.md R215, R217, R219, R221, R223, R225, R227, R229: the second-page rotates, shifts and SWAP of a
register. -/
def Obligations.ShiftsOfRegister : Prop :=
  ∀ (s : State) (r : R8),
    Completes (.rlcR r) [0b11001011, 0b00000#5 ++ r.code] 2 s (ShiftedReg .rlc r s) ∧
    Completes (.rrcR r) [0b11001011, 0b00001#5 ++ r.code] 2 s (ShiftedReg .rrc r s) ∧
    Completes (.rlR r) [0b11001011, 0b00010#5 ++ r.code] 2 s (ShiftedReg .rl r s) ∧
    Completes (.rrR r) [0b11001011, 0b00011#5 ++ r.code] 2 s (ShiftedReg .rr r s) ∧
    Completes (.slaR r) [0b11001011, 0b00100#5 ++ r.code] 2 s (ShiftedReg .sla r s) ∧
    Completes (.sraR r) [0b11001011, 0b00101#5 ++ r.code] 2 s (ShiftedReg .sra r s) ∧
    Completes (.swapR r) [0b11001011, 0b00110#5 ++ r.code] 2 s (ShiftedReg .swap r s) ∧
    Completes (.srlR r) [0b11001011, 0b00111#5 ++ r.code] 2 s (ShiftedReg .srl r s)

/-- 41_bit_manipulation.md R216, R218, R220, R222, R224, R226, R228, R230: the same on the byte at HL. -/
def Obligations.ShiftsOfMemory : Prop :=
  ∀ s : State, s.mem.wf = true →
    Completes .rlcM [0b11001011, 0b00000110] 4 s (ShiftedMem .rlc s) ∧
    Completes .rrcM [0b11001011, 0b00001110] 4 s (ShiftedMem .rrc s) ∧
    Completes .rlM [0b11001011, 0b00010110] 4 s (ShiftedMem .rl s) ∧
    Completes .rrM [0b11001011, 0b00011110] 4 s (ShiftedMem .rr s) ∧
    Completes .slaM [0b11001011, 0b00100110] 4 s (ShiftedMem .sla s) ∧
    Completes .sraM [0b11001011, 0b00101110] 4 s (ShiftedMem .sra s) ∧
    Completes .swapM [0b11001011, 0b00110110] 4 s (ShiftedMem .swap s) ∧
    Completes .srlM [0b11001011, 0b00111110] 4 s (ShiftedMem .srl s)

/-- 41_bit_manipulation.md R231, R232: BIT writes Z, N and H only, from a register or the byte at HL. -/
def Obligations.BitTests : Prop :=
  ∀ (s : State) (b : BitVec 3) (r : R8),
    (Completes (.bitR b r) [0b11001011, 0b01#2 ++ b ++ r.code] 2 s fun t =>
      FlagsAre t ((s.reg r).toNat / 2 ^ b.toNat % 2 = 0) False True s.fC ∧ Frame [] [] s t) ∧
    (Completes (.bitM b) [0b11001011, 0b01#2 ++ b ++ 0b110#3] 3 s fun t =>
      FlagsAre t ((s.memRead s.hl).toNat / 2 ^ b.toNat % 2 = 0) False True s.fC ∧ Frame [] [] s t)

/-- 41_bit_manipulation.md R233, R235: RES and SET of a register; every other bit and F are unchanged. -/
def Obligations.ResAndSetRegister : Prop :=
  ∀ (s : State) (b : BitVec 3) (r : R8),
    (Completes (.resR b r) [0b11001011, 0b10#2 ++ b ++ r.code] 2 s fun t =>
      (∀ k < 8, (t.reg r).getLsbD k = if k = b.toNat then false else (s.reg r).getLsbD k) ∧ t.f = s.f ∧
      Frame [r] [] s t) ∧
    (Completes (.setR b r) [0b11001011, 0b11#2 ++ b ++ r.code] 2 s fun t =>
      (∀ k < 8, (t.reg r).getLsbD k = if k = b.toNat then true else (s.reg r).getLsbD k) ∧ t.f = s.f ∧
      Frame [r] [] s t)

/-- 41_bit_manipulation.md R234, R236: RES and SET of the byte at HL. -/
def Obligations.ResAndSetMemory : Prop :=
  ∀ (s : State) (b : BitVec 3), s.mem.wf = true →
    (Completes (.resM b) [0b11001011, 0b10#2 ++ b ++ 0b110#3] 4 s fun t =>
      Stored s.hl (s.memRead s.hl &&& ~~~((1 : Byte) <<< b.toNat)) s t ∧ t.f = s.f ∧ Frame [] [s.hl] s t) ∧
    (Completes (.setM b) [0b11001011, 0b11#2 ++ b ++ 0b110#3] 4 s fun t =>
      Stored s.hl (s.memRead s.hl ||| (1 : Byte) <<< b.toNat) s t ∧ t.f = s.f ∧ Frame [] [s.hl] s t)

/-! ### Instructions: control transfer -/

/-- 42_jumps.md R251, R253, R254: JP, JP HL and JR. -/
def Obligations.Jumps : Prop :=
  ∀ (s : State) (a16 : Word) (e8 : Byte),
    (Completes (.jp a16) [0b11000011, a16.extractLsb' 0 8, a16.extractLsb' 8 8] 4 s fun t =>
      t = { s with pc := a16, cycles := t.cycles } ∧ SameBytesExcept [] s t) ∧
    (Completes .jpHl [0b11101001] 1 s fun t => t = { s with pc := s.hl, cycles := t.cycles } ∧ SameBytesExcept [] s t) ∧
    (Completes (.jr e8) [0b00011000, e8] 3 s fun t =>
      (t.pc.toNat : Int) = (s.pc.toNat + e8.toInt) % 65536 ∧
      t = { s with pc := t.pc, cycles := t.cycles } ∧ SameBytesExcept [] s t)

/-- 42_jumps.md R250, R252, R255: the four conditions, and JP and JR under them: taken at cost 4 and 3, not taken at cost 3
and 2 with PC as the fetch left it. -/
def Obligations.ConditionalJumps : Prop :=
  (∀ s : State, (s.cond .nz = true ↔ s.fZ = false) ∧ (s.cond .z = true ↔ s.fZ = true) ∧
    (s.cond .nc = true ↔ s.fC = false) ∧ (s.cond .c = true ↔ s.fC = true)) ∧
  ∀ (s : State) (cc : Cond) (a16 : Word) (e8 : Byte),
    (Completes (.jpCc cc a16) [0b110#3 ++ cc.code ++ 0b010#3, a16.extractLsb' 0 8, a16.extractLsb' 8 8]
      (if s.cond cc then 4 else 3) s fun t =>
        t = { s with pc := if s.cond cc then a16 else s.pc, cycles := t.cycles } ∧ SameBytesExcept [] s t) ∧
    (Completes (.jrCc cc e8) [0b001#3 ++ cc.code ++ 0b000#3, e8] (if s.cond cc then 3 else 2) s fun t =>
      (t.pc.toNat : Int) = (if s.cond cc then (s.pc.toNat + e8.toInt) % 65536 else s.pc.toNat) ∧
      t = { s with pc := t.pc, cycles := t.cycles } ∧ SameBytesExcept [] s t)

/-- 42_jumps.md R256, R257, R261: CALL, CALL cc and RST push PC, high byte at SP - 1 and low byte at SP - 2, and go to their
target; a call not taken pushes nothing. -/
def Obligations.CallsAndRestarts : Prop :=
  ∀ (s : State) (cc : Cond) (a16 : Word) (n : BitVec 3), s.mem.wf = true →
    (Completes (.call a16) [0b11001101, a16.extractLsb' 0 8, a16.extractLsb' 8 8] 6 s fun t =>
      Pushed (s.pc.extractLsb' 8 8) (s.pc.extractLsb' 0 8) s t ∧
      t = { s with pc := a16, sp := t.sp, cycles := t.cycles, mem := t.mem }) ∧
    (s.cond cc = true →
      Completes (.callCc cc a16) [0b110#3 ++ cc.code ++ 0b100#3, a16.extractLsb' 0 8, a16.extractLsb' 8 8] 6 s fun t =>
        Pushed (s.pc.extractLsb' 8 8) (s.pc.extractLsb' 0 8) s t ∧
        t = { s with pc := a16, sp := t.sp, cycles := t.cycles, mem := t.mem }) ∧
    (s.cond cc = false →
      Completes (.callCc cc a16) [0b110#3 ++ cc.code ++ 0b100#3, a16.extractLsb' 0 8, a16.extractLsb' 8 8] 3 s fun t =>
        t = { s with cycles := t.cycles } ∧ SameBytesExcept [] s t) ∧
    (Completes (.rst n) [0b11#2 ++ n ++ 0b111#3] 4 s fun t =>
      Pushed (s.pc.extractLsb' 8 8) (s.pc.extractLsb' 0 8) s t ∧
      t = { s with pc := BitVec.ofNat 16 (8 * n.toNat), sp := t.sp, cycles := t.cycles, mem := t.mem })

/-- 42_jumps.md R258 to R260, 60_exceptions.md R371: RET, RET cc and RETI pop PC, low byte from SP and high byte from
SP + 1; RETI also sets IME at once; a return not taken leaves SP. -/
def Obligations.Returns : Prop :=
  ∀ (s : State) (cc : Cond),
    let popped := fun t : State => t.pc.toNat = (s.memRead (s.sp + 1)).toNat * 256 + (s.memRead s.sp).toNat
    (Completes .ret [0b11001001] 4 s fun t =>
      popped t ∧ t = { s with pc := t.pc, sp := s.sp + 2, cycles := t.cycles } ∧ SameBytesExcept [] s t) ∧
    (s.cond cc = true → Completes (.retCc cc) [0b110#3 ++ cc.code ++ 0b000#3] 5 s fun t =>
      popped t ∧ t = { s with pc := t.pc, sp := s.sp + 2, cycles := t.cycles } ∧ SameBytesExcept [] s t) ∧
    (s.cond cc = false → Completes (.retCc cc) [0b110#3 ++ cc.code ++ 0b000#3] 2 s fun t =>
      t = { s with cycles := t.cycles } ∧ SameBytesExcept [] s t) ∧
    (Completes .reti [0b11011001] 4 s fun t =>
      popped t ∧ t = { s with pc := t.pc, sp := s.sp + 2, ime := true, cycles := t.cycles } ∧ SameBytesExcept [] s t)

/-! ### Instructions: loads, stores and the stack -/

/-- 43_loads.md R281 to R283: loads of a register from a register, an immediate and the byte at HL. -/
def Obligations.RegisterLoads : Prop :=
  ∀ (s : State) (r r' : R8) (n8 : Byte),
    (Completes (.ldRR r r') [0b01#2 ++ r.code ++ r'.code] 1 s fun t =>
      t.reg r = s.reg r' ∧ t.f = s.f ∧ Frame [r] [] s t) ∧
    (Completes (.ldRN r n8) [0b00#2 ++ r.code ++ 0b110#3, n8] 2 s fun t => t.reg r = n8 ∧ t.f = s.f ∧ Frame [r] [] s t) ∧
    (Completes (.ldRM r) [0b01#2 ++ r.code ++ 0b110#3] 2 s fun t =>
      t.reg r = s.memRead s.hl ∧ t.f = s.f ∧ Frame [r] [] s t)

/-- 43_loads.md R286, R287, R290, R292, R294: loads of A through BC, DE, an absolute and a high-page address. -/
def Obligations.LoadsOfA : Prop :=
  ∀ (s : State) (a16 : Word) (a8 : Byte),
    let loaded := fun (x : Word) (t : State) => t.a = s.memRead x ∧ t.f = s.f ∧ Frame [.a] [] s t
    Completes .ldABc [0b00001010] 2 s (loaded s.bc) ∧ Completes .ldADe [0b00011010] 2 s (loaded s.de) ∧
    Completes (.ldAAbs a16) [0b11111010, a16.extractLsb' 0 8, a16.extractLsb' 8 8] 4 s (loaded a16) ∧
    Completes (.ldhAImm a8) [0b11110000, a8] 3 s (loaded (BitVec.ofNat 16 (0xFF00 + a8.toNat))) ∧
    Completes .ldhAC [0b11110010] 2 s (loaded (BitVec.ofNat 16 (0xFF00 + s.c.toNat)))

/-- 43_loads.md R284, R285, R288, R289, R291, R293, R295: 8-bit stores; a protected address keeps its byte and the store
still completes at its cost. -/
def Obligations.Stores : Prop :=
  ∀ (s : State) (r : R8) (n8 a8 : Byte) (a16 : Word), s.mem.wf = true →
    let stored := fun (x : Word) (v : Byte) (t : State) => Stored x v s t ∧ t.f = s.f ∧ Frame [] [x] s t
    Completes (.ldMR r) [0b01110#5 ++ r.code] 2 s (stored s.hl (s.reg r)) ∧
    Completes (.ldMN n8) [0b00110110, n8] 3 s (stored s.hl n8) ∧
    Completes .ldBcA [0b00000010] 2 s (stored s.bc s.a) ∧ Completes .ldDeA [0b00010010] 2 s (stored s.de s.a) ∧
    Completes (.ldAbsA a16) [0b11101010, a16.extractLsb' 0 8, a16.extractLsb' 8 8] 4 s (stored a16 s.a) ∧
    Completes (.ldhImmA a8) [0b11100000, a8] 3 s (stored (BitVec.ofNat 16 (0xFF00 + a8.toNat)) s.a) ∧
    Completes .ldhCA [0b11100010] 2 s (stored (BitVec.ofNat 16 (0xFF00 + s.c.toNat)) s.a)

/-- 43_loads.md R296 to R299: loads and stores of A at HL, with HL incremented or decremented afterwards, modulo 65536,
also when the store is discarded. -/
def Obligations.PostIncrementAndDecrement : Prop :=
  ∀ s : State, s.mem.wf = true →
    (Completes .ldHlIncA [0b00100010] 2 s fun t =>
      Stored s.hl s.a s t ∧ t.hl = s.hl + 1 ∧ t.f = s.f ∧ Frame [.h, .l] [s.hl] s t) ∧
    (Completes .ldHlDecA [0b00110010] 2 s fun t =>
      Stored s.hl s.a s t ∧ t.hl = s.hl - 1 ∧ t.f = s.f ∧ Frame [.h, .l] [s.hl] s t) ∧
    (Completes .ldAHlInc [0b00101010] 2 s fun t =>
      t.a = s.memRead s.hl ∧ t.hl = s.hl + 1 ∧ t.f = s.f ∧ Frame [.a, .h, .l] [] s t) ∧
    (Completes .ldAHlDec [0b00111010] 2 s fun t =>
      t.a = s.memRead s.hl ∧ t.hl = s.hl - 1 ∧ t.f = s.f ∧ Frame [.a, .h, .l] [] s t)

/-- 43_loads.md R300 to R302: the 16-bit loads; the first operand byte is the low one, and LD (a16),SP stores the low byte of
SP at the lower address. -/
def Obligations.SixteenBitLoads : Prop :=
  ∀ (s : State) (rr : R16) (n16 : Word), s.mem.wf = true →
    (Completes (.ldRrNn rr n16) [0b00#2 ++ rr.code ++ 0b0001#4, n16.extractLsb' 0 8, n16.extractLsb' 8 8] 3 s fun t =>
      t.pair rr = n16 ∧ (∀ q, q ≠ rr → t.pair q = s.pair q) ∧ SameBytesExcept [] s t ∧
      t = { s with b := t.b, c := t.c, d := t.d, e := t.e, h := t.h, l := t.l, sp := t.sp, cycles := t.cycles }) ∧
    (Completes (.ldAbsSp n16) [0b00001000, n16.extractLsb' 0 8, n16.extractLsb' 8 8] 5 s fun t =>
      Stored n16 (s.sp.extractLsb' 0 8) s t ∧ Stored (n16 + 1) (s.sp.extractLsb' 8 8) s t ∧
      SameBytesExcept [n16, n16 + 1] s t ∧ t = { s with cycles := t.cycles, mem := t.mem }) ∧
    (Completes .ldSpHl [0b11111001] 2 s fun t => t = { s with sp := s.hl, cycles := t.cycles } ∧ SameBytesExcept [] s t)

/-- 44_stack.md R321, R322: PUSH and POP of the four pairs; POP AF clears the low nibble of F. -/
def Obligations.PushAndPop : Prop :=
  ∀ s : State, s.mem.wf = true →
    let hi := s.memRead (s.sp + 1)
    let lo := s.memRead s.sp
    let pushed := fun (high low : Byte) (t : State) =>
      Pushed high low s t ∧ t = { s with sp := t.sp, cycles := t.cycles, mem := t.mem }
    let popped := fun (u t : State) => t = { u with sp := s.sp + 2, cycles := t.cycles } ∧ SameBytesExcept [] s t
    (Completes (.push .bc) [0b11000101] 4 s (pushed s.b s.c) ∧ Completes (.push .de) [0b11010101] 4 s (pushed s.d s.e) ∧
      Completes (.push .hl) [0b11100101] 4 s (pushed s.h s.l) ∧ Completes (.push .af) [0b11110101] 4 s (pushed s.a s.f)) ∧
    (Completes (.pop .bc) [0b11000001] 3 s (popped { s with b := hi, c := lo }) ∧
      Completes (.pop .de) [0b11010001] 3 s (popped { s with d := hi, e := lo }) ∧
      Completes (.pop .hl) [0b11100001] 3 s (popped { s with h := hi, l := lo }) ∧
      Completes (.pop .af) [0b11110001] 3 s (popped { s with a := hi, f := lo &&& 0xF0 }))

/-! ### Instructions: 16-bit arithmetic and control -/

/-- 45_arith16.md R330 to R332: ADD HL,rr leaves Z and takes H and C from bits 11 and 15; INC rr and DEC rr write no flag. -/
def Obligations.PairArithmetic : Prop :=
  ∀ (s : State) (rr : R16),
    (Completes (.addHlRr rr) [0b00#2 ++ rr.code ++ 0b1001#4] 2 s fun t =>
      let x := s.hl.toNat
      let y := (s.pair rr).toNat
      t.hl.toNat = (x + y) % 65536 ∧
      FlagsAre t s.fZ False (x % 4096 + y % 4096 > 4095) (x + y > 65535) ∧ Frame [.h, .l] [] s t) ∧
    (Completes (.incRr rr) [0b00#2 ++ rr.code ++ 0b0011#4] 2 s fun t =>
      (t.pair rr).toNat = ((s.pair rr).toNat + 1) % 65536 ∧ (∀ q, q ≠ rr → t.pair q = s.pair q) ∧
      SameBytesExcept [] s t ∧
      t = { s with b := t.b, c := t.c, d := t.d, e := t.e, h := t.h, l := t.l, sp := t.sp, cycles := t.cycles }) ∧
    (Completes (.decRr rr) [0b00#2 ++ rr.code ++ 0b1011#4] 2 s fun t =>
      ((t.pair rr).toNat : Int) = (((s.pair rr).toNat : Int) - 1) % 65536 ∧ (∀ q, q ≠ rr → t.pair q = s.pair q) ∧
      SameBytesExcept [] s t ∧
      t = { s with b := t.b, c := t.c, d := t.d, e := t.e, h := t.h, l := t.l, sp := t.sp, cycles := t.cycles })

/-- 45_arith16.md R333, R334: SP plus a signed byte, with Z and N clear and H and C those of SP's low byte plus the raw
operand byte. -/
def Obligations.StackPointerArithmetic : Prop :=
  ∀ (s : State) (e8 : Byte),
    let x := s.sp.toNat
    let flags := fun t : State => FlagsAre t False False (x % 16 + e8.toNat % 16 > 15) (x % 256 + e8.toNat > 255)
    (Completes (.addSpE e8) [0b11101000, e8] 4 s fun t =>
      (t.sp.toNat : Int) = (x + e8.toInt) % 65536 ∧ flags t ∧ SameBytesExcept [] s t ∧
      t = { s with sp := t.sp, f := t.f, cycles := t.cycles }) ∧
    (Completes (.ldHlSpE e8) [0b11111000, e8] 3 s fun t =>
      (t.hl.toNat : Int) = (x + e8.toInt) % 65536 ∧ flags t ∧ SameBytesExcept [] s t ∧
      t = { s with h := t.h, l := t.l, f := t.f, cycles := t.cycles })

/-- 46_misc_control.md R340, R343: NOP changes nothing; DI clears IME and `ei_pending` at once. -/
def Obligations.NopAndDi : Prop :=
  ∀ s : State,
    (Completes .nop [0b00000000] 1 s fun t => t = { s with cycles := t.cycles } ∧ SameBytesExcept [] s t) ∧
    (Completes .di [0b11110011] 1 s fun t =>
      t = { s with ime := false, eiPending := false, cycles := t.cycles } ∧ SameBytesExcept [] s t)

/-- 46_misc_control.md R345: the prefix and its second byte are one instruction, the second-page row of that byte (the one
whose encoding is those two bytes), at its cost of 2, 3 or 4. That the decoder gives that instruction in place of the
prefix's own row, and that the meaning of the bare prefix row is that instruction's, is the model's choice (log 5, DESIGN
CHOICE). -/
def Obligations.PrefixSelectsTheSecondPage : Prop :=
  ∀ (s : State) (second : Byte), ∃ (i : Instr) (t : State),
    Reads [0b11001011, second] i ∧ i.wellFormed = true ∧ encode i = [0b11001011, second] ∧
    exec i s = .next t ∧ exec (.prefixCB second) s = .next t ∧
    (t.cycles = s.cycles + 2 ∨ t.cycles = s.cycles + 3 ∨ t.cycles = s.cycles + 4)

end
end

