-- ==== Sys2Proof/Laws/State.lean ====
section
/-! SUPPORT. One lemma per field per update of the state. A later proof cites these and does not unfold an update. -/

namespace Sys2Proof.Machine

/-! ### spend -/

@[simp] theorem State.spend_a (s : State) (n : Nat) : (s.spend n).a = s.a := rfl
@[simp] theorem State.spend_f (s : State) (n : Nat) : (s.spend n).f = s.f := rfl
@[simp] theorem State.spend_b (s : State) (n : Nat) : (s.spend n).b = s.b := rfl
@[simp] theorem State.spend_c (s : State) (n : Nat) : (s.spend n).c = s.c := rfl
@[simp] theorem State.spend_d (s : State) (n : Nat) : (s.spend n).d = s.d := rfl
@[simp] theorem State.spend_e (s : State) (n : Nat) : (s.spend n).e = s.e := rfl
@[simp] theorem State.spend_h (s : State) (n : Nat) : (s.spend n).h = s.h := rfl
@[simp] theorem State.spend_l (s : State) (n : Nat) : (s.spend n).l = s.l := rfl
@[simp] theorem State.spend_pc (s : State) (n : Nat) : (s.spend n).pc = s.pc := rfl
@[simp] theorem State.spend_sp (s : State) (n : Nat) : (s.spend n).sp = s.sp := rfl
@[simp] theorem State.spend_ime (s : State) (n : Nat) : (s.spend n).ime = s.ime := rfl
@[simp] theorem State.spend_eiPending (s : State) (n : Nat) : (s.spend n).eiPending = s.eiPending := rfl
@[simp] theorem State.spend_halted (s : State) (n : Nat) : (s.spend n).halted = s.halted := rfl
@[simp] theorem State.spend_stopped (s : State) (n : Nat) : (s.spend n).stopped = s.stopped := rfl
@[simp] theorem State.spend_fault (s : State) (n : Nat) : (s.spend n).fault = s.fault := rfl
@[simp] theorem State.spend_cycles (s : State) (n : Nat) : (s.spend n).cycles = s.cycles + n := rfl
@[simp] theorem State.spend_mem (s : State) (n : Nat) : (s.spend n).mem = s.mem := rfl
@[simp] theorem State.spend_tcount (s : State) (n : Nat) : (s.spend n).tcount = s.tcount := rfl
@[simp] theorem State.spend_tov (s : State) (n : Nat) : (s.spend n).tov = s.tov := rfl
@[simp] theorem State.spend_tprev (s : State) (n : Nat) : (s.spend n).tprev = s.tprev := rfl
@[simp] theorem State.spend_pmode (s : State) (n : Nat) : (s.spend n).pmode = s.pmode := rfl
@[simp] theorem State.spend_ly (s : State) (n : Nat) : (s.spend n).ly = s.ly := rfl
@[simp] theorem State.spend_pcnt (s : State) (n : Nat) : (s.spend n).pcnt = s.pcnt := rfl
@[simp] theorem State.spend_events (s : State) (n : Nat) : (s.spend n).events = s.events := rfl

/-! ### setF -/

@[simp] theorem State.setF_a (s : State) (v : Byte) : (s.setF v).a = s.a := rfl
@[simp] theorem State.setF_f (s : State) (v : Byte) : (s.setF v).f = v &&& 0xF0 := rfl
@[simp] theorem State.setF_b (s : State) (v : Byte) : (s.setF v).b = s.b := rfl
@[simp] theorem State.setF_c (s : State) (v : Byte) : (s.setF v).c = s.c := rfl
@[simp] theorem State.setF_d (s : State) (v : Byte) : (s.setF v).d = s.d := rfl
@[simp] theorem State.setF_e (s : State) (v : Byte) : (s.setF v).e = s.e := rfl
@[simp] theorem State.setF_h (s : State) (v : Byte) : (s.setF v).h = s.h := rfl
@[simp] theorem State.setF_l (s : State) (v : Byte) : (s.setF v).l = s.l := rfl
@[simp] theorem State.setF_pc (s : State) (v : Byte) : (s.setF v).pc = s.pc := rfl
@[simp] theorem State.setF_sp (s : State) (v : Byte) : (s.setF v).sp = s.sp := rfl
@[simp] theorem State.setF_ime (s : State) (v : Byte) : (s.setF v).ime = s.ime := rfl
@[simp] theorem State.setF_eiPending (s : State) (v : Byte) : (s.setF v).eiPending = s.eiPending := rfl
@[simp] theorem State.setF_halted (s : State) (v : Byte) : (s.setF v).halted = s.halted := rfl
@[simp] theorem State.setF_stopped (s : State) (v : Byte) : (s.setF v).stopped = s.stopped := rfl
@[simp] theorem State.setF_fault (s : State) (v : Byte) : (s.setF v).fault = s.fault := rfl
@[simp] theorem State.setF_cycles (s : State) (v : Byte) : (s.setF v).cycles = s.cycles := rfl
@[simp] theorem State.setF_mem (s : State) (v : Byte) : (s.setF v).mem = s.mem := rfl
@[simp] theorem State.setF_tcount (s : State) (v : Byte) : (s.setF v).tcount = s.tcount := rfl
@[simp] theorem State.setF_tov (s : State) (v : Byte) : (s.setF v).tov = s.tov := rfl
@[simp] theorem State.setF_tprev (s : State) (v : Byte) : (s.setF v).tprev = s.tprev := rfl
@[simp] theorem State.setF_pmode (s : State) (v : Byte) : (s.setF v).pmode = s.pmode := rfl
@[simp] theorem State.setF_ly (s : State) (v : Byte) : (s.setF v).ly = s.ly := rfl
@[simp] theorem State.setF_pcnt (s : State) (v : Byte) : (s.setF v).pcnt = s.pcnt := rfl
@[simp] theorem State.setF_events (s : State) (v : Byte) : (s.setF v).events = s.events := rfl

/-! ### setFlags -/

@[simp] theorem State.setFlags_a (s : State) (z n h c : Bool) : (s.setFlags z n h c).a = s.a := rfl
@[simp] theorem State.setFlags_f (s : State) (z n h c : Bool) : (s.setFlags z n h c).f = packFlags z n h c &&& 0xF0 := rfl
@[simp] theorem State.setFlags_b (s : State) (z n h c : Bool) : (s.setFlags z n h c).b = s.b := rfl
@[simp] theorem State.setFlags_c (s : State) (z n h c : Bool) : (s.setFlags z n h c).c = s.c := rfl
@[simp] theorem State.setFlags_d (s : State) (z n h c : Bool) : (s.setFlags z n h c).d = s.d := rfl
@[simp] theorem State.setFlags_e (s : State) (z n h c : Bool) : (s.setFlags z n h c).e = s.e := rfl
@[simp] theorem State.setFlags_h (s : State) (z n h c : Bool) : (s.setFlags z n h c).h = s.h := rfl
@[simp] theorem State.setFlags_l (s : State) (z n h c : Bool) : (s.setFlags z n h c).l = s.l := rfl
@[simp] theorem State.setFlags_pc (s : State) (z n h c : Bool) : (s.setFlags z n h c).pc = s.pc := rfl
@[simp] theorem State.setFlags_sp (s : State) (z n h c : Bool) : (s.setFlags z n h c).sp = s.sp := rfl
@[simp] theorem State.setFlags_ime (s : State) (z n h c : Bool) : (s.setFlags z n h c).ime = s.ime := rfl
@[simp] theorem State.setFlags_eiPending (s : State) (z n h c : Bool) : (s.setFlags z n h c).eiPending = s.eiPending := rfl
@[simp] theorem State.setFlags_halted (s : State) (z n h c : Bool) : (s.setFlags z n h c).halted = s.halted := rfl
@[simp] theorem State.setFlags_stopped (s : State) (z n h c : Bool) : (s.setFlags z n h c).stopped = s.stopped := rfl
@[simp] theorem State.setFlags_fault (s : State) (z n h c : Bool) : (s.setFlags z n h c).fault = s.fault := rfl
@[simp] theorem State.setFlags_cycles (s : State) (z n h c : Bool) : (s.setFlags z n h c).cycles = s.cycles := rfl
@[simp] theorem State.setFlags_mem (s : State) (z n h c : Bool) : (s.setFlags z n h c).mem = s.mem := rfl
@[simp] theorem State.setFlags_tcount (s : State) (z n h c : Bool) : (s.setFlags z n h c).tcount = s.tcount := rfl
@[simp] theorem State.setFlags_tov (s : State) (z n h c : Bool) : (s.setFlags z n h c).tov = s.tov := rfl
@[simp] theorem State.setFlags_tprev (s : State) (z n h c : Bool) : (s.setFlags z n h c).tprev = s.tprev := rfl
@[simp] theorem State.setFlags_pmode (s : State) (z n h c : Bool) : (s.setFlags z n h c).pmode = s.pmode := rfl
@[simp] theorem State.setFlags_ly (s : State) (z n h c : Bool) : (s.setFlags z n h c).ly = s.ly := rfl
@[simp] theorem State.setFlags_pcnt (s : State) (z n h c : Bool) : (s.setFlags z n h c).pcnt = s.pcnt := rfl
@[simp] theorem State.setFlags_events (s : State) (z n h c : Bool) : (s.setFlags z n h c).events = s.events := rfl

/-! ### setAluFlags -/

@[simp] theorem State.setAluFlags_a (s : State) (r : AluOut) : (s.setAluFlags r).a = s.a := rfl
@[simp] theorem State.setAluFlags_f (s : State) (r : AluOut) : (s.setAluFlags r).f = packFlags r.z r.n r.h r.c &&& 0xF0 := rfl
@[simp] theorem State.setAluFlags_b (s : State) (r : AluOut) : (s.setAluFlags r).b = s.b := rfl
@[simp] theorem State.setAluFlags_c (s : State) (r : AluOut) : (s.setAluFlags r).c = s.c := rfl
@[simp] theorem State.setAluFlags_d (s : State) (r : AluOut) : (s.setAluFlags r).d = s.d := rfl
@[simp] theorem State.setAluFlags_e (s : State) (r : AluOut) : (s.setAluFlags r).e = s.e := rfl
@[simp] theorem State.setAluFlags_h (s : State) (r : AluOut) : (s.setAluFlags r).h = s.h := rfl
@[simp] theorem State.setAluFlags_l (s : State) (r : AluOut) : (s.setAluFlags r).l = s.l := rfl
@[simp] theorem State.setAluFlags_pc (s : State) (r : AluOut) : (s.setAluFlags r).pc = s.pc := rfl
@[simp] theorem State.setAluFlags_sp (s : State) (r : AluOut) : (s.setAluFlags r).sp = s.sp := rfl
@[simp] theorem State.setAluFlags_ime (s : State) (r : AluOut) : (s.setAluFlags r).ime = s.ime := rfl
@[simp] theorem State.setAluFlags_eiPending (s : State) (r : AluOut) : (s.setAluFlags r).eiPending = s.eiPending := rfl
@[simp] theorem State.setAluFlags_halted (s : State) (r : AluOut) : (s.setAluFlags r).halted = s.halted := rfl
@[simp] theorem State.setAluFlags_stopped (s : State) (r : AluOut) : (s.setAluFlags r).stopped = s.stopped := rfl
@[simp] theorem State.setAluFlags_fault (s : State) (r : AluOut) : (s.setAluFlags r).fault = s.fault := rfl
@[simp] theorem State.setAluFlags_cycles (s : State) (r : AluOut) : (s.setAluFlags r).cycles = s.cycles := rfl
@[simp] theorem State.setAluFlags_mem (s : State) (r : AluOut) : (s.setAluFlags r).mem = s.mem := rfl
@[simp] theorem State.setAluFlags_tcount (s : State) (r : AluOut) : (s.setAluFlags r).tcount = s.tcount := rfl
@[simp] theorem State.setAluFlags_tov (s : State) (r : AluOut) : (s.setAluFlags r).tov = s.tov := rfl
@[simp] theorem State.setAluFlags_tprev (s : State) (r : AluOut) : (s.setAluFlags r).tprev = s.tprev := rfl
@[simp] theorem State.setAluFlags_pmode (s : State) (r : AluOut) : (s.setAluFlags r).pmode = s.pmode := rfl
@[simp] theorem State.setAluFlags_ly (s : State) (r : AluOut) : (s.setAluFlags r).ly = s.ly := rfl
@[simp] theorem State.setAluFlags_pcnt (s : State) (r : AluOut) : (s.setAluFlags r).pcnt = s.pcnt := rfl
@[simp] theorem State.setAluFlags_events (s : State) (r : AluOut) : (s.setAluFlags r).events = s.events := rfl

/-! ### setAcc -/

@[simp] theorem State.setAcc_a (s : State) (r : AluOut) : (s.setAcc r).a = r.value := rfl
@[simp] theorem State.setAcc_f (s : State) (r : AluOut) : (s.setAcc r).f = packFlags r.z r.n r.h r.c &&& 0xF0 := rfl
@[simp] theorem State.setAcc_b (s : State) (r : AluOut) : (s.setAcc r).b = s.b := rfl
@[simp] theorem State.setAcc_c (s : State) (r : AluOut) : (s.setAcc r).c = s.c := rfl
@[simp] theorem State.setAcc_d (s : State) (r : AluOut) : (s.setAcc r).d = s.d := rfl
@[simp] theorem State.setAcc_e (s : State) (r : AluOut) : (s.setAcc r).e = s.e := rfl
@[simp] theorem State.setAcc_h (s : State) (r : AluOut) : (s.setAcc r).h = s.h := rfl
@[simp] theorem State.setAcc_l (s : State) (r : AluOut) : (s.setAcc r).l = s.l := rfl
@[simp] theorem State.setAcc_pc (s : State) (r : AluOut) : (s.setAcc r).pc = s.pc := rfl
@[simp] theorem State.setAcc_sp (s : State) (r : AluOut) : (s.setAcc r).sp = s.sp := rfl
@[simp] theorem State.setAcc_ime (s : State) (r : AluOut) : (s.setAcc r).ime = s.ime := rfl
@[simp] theorem State.setAcc_eiPending (s : State) (r : AluOut) : (s.setAcc r).eiPending = s.eiPending := rfl
@[simp] theorem State.setAcc_halted (s : State) (r : AluOut) : (s.setAcc r).halted = s.halted := rfl
@[simp] theorem State.setAcc_stopped (s : State) (r : AluOut) : (s.setAcc r).stopped = s.stopped := rfl
@[simp] theorem State.setAcc_fault (s : State) (r : AluOut) : (s.setAcc r).fault = s.fault := rfl
@[simp] theorem State.setAcc_cycles (s : State) (r : AluOut) : (s.setAcc r).cycles = s.cycles := rfl
@[simp] theorem State.setAcc_mem (s : State) (r : AluOut) : (s.setAcc r).mem = s.mem := rfl
@[simp] theorem State.setAcc_tcount (s : State) (r : AluOut) : (s.setAcc r).tcount = s.tcount := rfl
@[simp] theorem State.setAcc_tov (s : State) (r : AluOut) : (s.setAcc r).tov = s.tov := rfl
@[simp] theorem State.setAcc_tprev (s : State) (r : AluOut) : (s.setAcc r).tprev = s.tprev := rfl
@[simp] theorem State.setAcc_pmode (s : State) (r : AluOut) : (s.setAcc r).pmode = s.pmode := rfl
@[simp] theorem State.setAcc_ly (s : State) (r : AluOut) : (s.setAcc r).ly = s.ly := rfl
@[simp] theorem State.setAcc_pcnt (s : State) (r : AluOut) : (s.setAcc r).pcnt = s.pcnt := rfl
@[simp] theorem State.setAcc_events (s : State) (r : AluOut) : (s.setAcc r).events = s.events := rfl

/-! ### setAf -/

@[simp] theorem State.setAf_a (s : State) (v : Word) : (s.setAf v).a = hiByte v := rfl
@[simp] theorem State.setAf_f (s : State) (v : Word) : (s.setAf v).f = loByte v &&& 0xF0 := rfl
@[simp] theorem State.setAf_b (s : State) (v : Word) : (s.setAf v).b = s.b := rfl
@[simp] theorem State.setAf_c (s : State) (v : Word) : (s.setAf v).c = s.c := rfl
@[simp] theorem State.setAf_d (s : State) (v : Word) : (s.setAf v).d = s.d := rfl
@[simp] theorem State.setAf_e (s : State) (v : Word) : (s.setAf v).e = s.e := rfl
@[simp] theorem State.setAf_h (s : State) (v : Word) : (s.setAf v).h = s.h := rfl
@[simp] theorem State.setAf_l (s : State) (v : Word) : (s.setAf v).l = s.l := rfl
@[simp] theorem State.setAf_pc (s : State) (v : Word) : (s.setAf v).pc = s.pc := rfl
@[simp] theorem State.setAf_sp (s : State) (v : Word) : (s.setAf v).sp = s.sp := rfl
@[simp] theorem State.setAf_ime (s : State) (v : Word) : (s.setAf v).ime = s.ime := rfl
@[simp] theorem State.setAf_eiPending (s : State) (v : Word) : (s.setAf v).eiPending = s.eiPending := rfl
@[simp] theorem State.setAf_halted (s : State) (v : Word) : (s.setAf v).halted = s.halted := rfl
@[simp] theorem State.setAf_stopped (s : State) (v : Word) : (s.setAf v).stopped = s.stopped := rfl
@[simp] theorem State.setAf_fault (s : State) (v : Word) : (s.setAf v).fault = s.fault := rfl
@[simp] theorem State.setAf_cycles (s : State) (v : Word) : (s.setAf v).cycles = s.cycles := rfl
@[simp] theorem State.setAf_mem (s : State) (v : Word) : (s.setAf v).mem = s.mem := rfl
@[simp] theorem State.setAf_tcount (s : State) (v : Word) : (s.setAf v).tcount = s.tcount := rfl
@[simp] theorem State.setAf_tov (s : State) (v : Word) : (s.setAf v).tov = s.tov := rfl
@[simp] theorem State.setAf_tprev (s : State) (v : Word) : (s.setAf v).tprev = s.tprev := rfl
@[simp] theorem State.setAf_pmode (s : State) (v : Word) : (s.setAf v).pmode = s.pmode := rfl
@[simp] theorem State.setAf_ly (s : State) (v : Word) : (s.setAf v).ly = s.ly := rfl
@[simp] theorem State.setAf_pcnt (s : State) (v : Word) : (s.setAf v).pcnt = s.pcnt := rfl
@[simp] theorem State.setAf_events (s : State) (v : Word) : (s.setAf v).events = s.events := rfl

/-! ### setBc -/

@[simp] theorem State.setBc_a (s : State) (v : Word) : (s.setBc v).a = s.a := rfl
@[simp] theorem State.setBc_f (s : State) (v : Word) : (s.setBc v).f = s.f := rfl
@[simp] theorem State.setBc_b (s : State) (v : Word) : (s.setBc v).b = hiByte v := rfl
@[simp] theorem State.setBc_c (s : State) (v : Word) : (s.setBc v).c = loByte v := rfl
@[simp] theorem State.setBc_d (s : State) (v : Word) : (s.setBc v).d = s.d := rfl
@[simp] theorem State.setBc_e (s : State) (v : Word) : (s.setBc v).e = s.e := rfl
@[simp] theorem State.setBc_h (s : State) (v : Word) : (s.setBc v).h = s.h := rfl
@[simp] theorem State.setBc_l (s : State) (v : Word) : (s.setBc v).l = s.l := rfl
@[simp] theorem State.setBc_pc (s : State) (v : Word) : (s.setBc v).pc = s.pc := rfl
@[simp] theorem State.setBc_sp (s : State) (v : Word) : (s.setBc v).sp = s.sp := rfl
@[simp] theorem State.setBc_ime (s : State) (v : Word) : (s.setBc v).ime = s.ime := rfl
@[simp] theorem State.setBc_eiPending (s : State) (v : Word) : (s.setBc v).eiPending = s.eiPending := rfl
@[simp] theorem State.setBc_halted (s : State) (v : Word) : (s.setBc v).halted = s.halted := rfl
@[simp] theorem State.setBc_stopped (s : State) (v : Word) : (s.setBc v).stopped = s.stopped := rfl
@[simp] theorem State.setBc_fault (s : State) (v : Word) : (s.setBc v).fault = s.fault := rfl
@[simp] theorem State.setBc_cycles (s : State) (v : Word) : (s.setBc v).cycles = s.cycles := rfl
@[simp] theorem State.setBc_mem (s : State) (v : Word) : (s.setBc v).mem = s.mem := rfl
@[simp] theorem State.setBc_tcount (s : State) (v : Word) : (s.setBc v).tcount = s.tcount := rfl
@[simp] theorem State.setBc_tov (s : State) (v : Word) : (s.setBc v).tov = s.tov := rfl
@[simp] theorem State.setBc_tprev (s : State) (v : Word) : (s.setBc v).tprev = s.tprev := rfl
@[simp] theorem State.setBc_pmode (s : State) (v : Word) : (s.setBc v).pmode = s.pmode := rfl
@[simp] theorem State.setBc_ly (s : State) (v : Word) : (s.setBc v).ly = s.ly := rfl
@[simp] theorem State.setBc_pcnt (s : State) (v : Word) : (s.setBc v).pcnt = s.pcnt := rfl
@[simp] theorem State.setBc_events (s : State) (v : Word) : (s.setBc v).events = s.events := rfl

/-! ### setDe -/

@[simp] theorem State.setDe_a (s : State) (v : Word) : (s.setDe v).a = s.a := rfl
@[simp] theorem State.setDe_f (s : State) (v : Word) : (s.setDe v).f = s.f := rfl
@[simp] theorem State.setDe_b (s : State) (v : Word) : (s.setDe v).b = s.b := rfl
@[simp] theorem State.setDe_c (s : State) (v : Word) : (s.setDe v).c = s.c := rfl
@[simp] theorem State.setDe_d (s : State) (v : Word) : (s.setDe v).d = hiByte v := rfl
@[simp] theorem State.setDe_e (s : State) (v : Word) : (s.setDe v).e = loByte v := rfl
@[simp] theorem State.setDe_h (s : State) (v : Word) : (s.setDe v).h = s.h := rfl
@[simp] theorem State.setDe_l (s : State) (v : Word) : (s.setDe v).l = s.l := rfl
@[simp] theorem State.setDe_pc (s : State) (v : Word) : (s.setDe v).pc = s.pc := rfl
@[simp] theorem State.setDe_sp (s : State) (v : Word) : (s.setDe v).sp = s.sp := rfl
@[simp] theorem State.setDe_ime (s : State) (v : Word) : (s.setDe v).ime = s.ime := rfl
@[simp] theorem State.setDe_eiPending (s : State) (v : Word) : (s.setDe v).eiPending = s.eiPending := rfl
@[simp] theorem State.setDe_halted (s : State) (v : Word) : (s.setDe v).halted = s.halted := rfl
@[simp] theorem State.setDe_stopped (s : State) (v : Word) : (s.setDe v).stopped = s.stopped := rfl
@[simp] theorem State.setDe_fault (s : State) (v : Word) : (s.setDe v).fault = s.fault := rfl
@[simp] theorem State.setDe_cycles (s : State) (v : Word) : (s.setDe v).cycles = s.cycles := rfl
@[simp] theorem State.setDe_mem (s : State) (v : Word) : (s.setDe v).mem = s.mem := rfl
@[simp] theorem State.setDe_tcount (s : State) (v : Word) : (s.setDe v).tcount = s.tcount := rfl
@[simp] theorem State.setDe_tov (s : State) (v : Word) : (s.setDe v).tov = s.tov := rfl
@[simp] theorem State.setDe_tprev (s : State) (v : Word) : (s.setDe v).tprev = s.tprev := rfl
@[simp] theorem State.setDe_pmode (s : State) (v : Word) : (s.setDe v).pmode = s.pmode := rfl
@[simp] theorem State.setDe_ly (s : State) (v : Word) : (s.setDe v).ly = s.ly := rfl
@[simp] theorem State.setDe_pcnt (s : State) (v : Word) : (s.setDe v).pcnt = s.pcnt := rfl
@[simp] theorem State.setDe_events (s : State) (v : Word) : (s.setDe v).events = s.events := rfl

/-! ### setHl -/

@[simp] theorem State.setHl_a (s : State) (v : Word) : (s.setHl v).a = s.a := rfl
@[simp] theorem State.setHl_f (s : State) (v : Word) : (s.setHl v).f = s.f := rfl
@[simp] theorem State.setHl_b (s : State) (v : Word) : (s.setHl v).b = s.b := rfl
@[simp] theorem State.setHl_c (s : State) (v : Word) : (s.setHl v).c = s.c := rfl
@[simp] theorem State.setHl_d (s : State) (v : Word) : (s.setHl v).d = s.d := rfl
@[simp] theorem State.setHl_e (s : State) (v : Word) : (s.setHl v).e = s.e := rfl
@[simp] theorem State.setHl_h (s : State) (v : Word) : (s.setHl v).h = hiByte v := rfl
@[simp] theorem State.setHl_l (s : State) (v : Word) : (s.setHl v).l = loByte v := rfl
@[simp] theorem State.setHl_pc (s : State) (v : Word) : (s.setHl v).pc = s.pc := rfl
@[simp] theorem State.setHl_sp (s : State) (v : Word) : (s.setHl v).sp = s.sp := rfl
@[simp] theorem State.setHl_ime (s : State) (v : Word) : (s.setHl v).ime = s.ime := rfl
@[simp] theorem State.setHl_eiPending (s : State) (v : Word) : (s.setHl v).eiPending = s.eiPending := rfl
@[simp] theorem State.setHl_halted (s : State) (v : Word) : (s.setHl v).halted = s.halted := rfl
@[simp] theorem State.setHl_stopped (s : State) (v : Word) : (s.setHl v).stopped = s.stopped := rfl
@[simp] theorem State.setHl_fault (s : State) (v : Word) : (s.setHl v).fault = s.fault := rfl
@[simp] theorem State.setHl_cycles (s : State) (v : Word) : (s.setHl v).cycles = s.cycles := rfl
@[simp] theorem State.setHl_mem (s : State) (v : Word) : (s.setHl v).mem = s.mem := rfl
@[simp] theorem State.setHl_tcount (s : State) (v : Word) : (s.setHl v).tcount = s.tcount := rfl
@[simp] theorem State.setHl_tov (s : State) (v : Word) : (s.setHl v).tov = s.tov := rfl
@[simp] theorem State.setHl_tprev (s : State) (v : Word) : (s.setHl v).tprev = s.tprev := rfl
@[simp] theorem State.setHl_pmode (s : State) (v : Word) : (s.setHl v).pmode = s.pmode := rfl
@[simp] theorem State.setHl_ly (s : State) (v : Word) : (s.setHl v).ly = s.ly := rfl
@[simp] theorem State.setHl_pcnt (s : State) (v : Word) : (s.setHl v).pcnt = s.pcnt := rfl
@[simp] theorem State.setHl_events (s : State) (v : Word) : (s.setHl v).events = s.events := rfl

/-! ### popSp -/

@[simp] theorem State.popSp_a (s : State) : (s.popSp).a = s.a := rfl
@[simp] theorem State.popSp_f (s : State) : (s.popSp).f = s.f := rfl
@[simp] theorem State.popSp_b (s : State) : (s.popSp).b = s.b := rfl
@[simp] theorem State.popSp_c (s : State) : (s.popSp).c = s.c := rfl
@[simp] theorem State.popSp_d (s : State) : (s.popSp).d = s.d := rfl
@[simp] theorem State.popSp_e (s : State) : (s.popSp).e = s.e := rfl
@[simp] theorem State.popSp_h (s : State) : (s.popSp).h = s.h := rfl
@[simp] theorem State.popSp_l (s : State) : (s.popSp).l = s.l := rfl
@[simp] theorem State.popSp_pc (s : State) : (s.popSp).pc = s.pc := rfl
@[simp] theorem State.popSp_sp (s : State) : (s.popSp).sp = s.sp + 2 := rfl
@[simp] theorem State.popSp_ime (s : State) : (s.popSp).ime = s.ime := rfl
@[simp] theorem State.popSp_eiPending (s : State) : (s.popSp).eiPending = s.eiPending := rfl
@[simp] theorem State.popSp_halted (s : State) : (s.popSp).halted = s.halted := rfl
@[simp] theorem State.popSp_stopped (s : State) : (s.popSp).stopped = s.stopped := rfl
@[simp] theorem State.popSp_fault (s : State) : (s.popSp).fault = s.fault := rfl
@[simp] theorem State.popSp_cycles (s : State) : (s.popSp).cycles = s.cycles := rfl
@[simp] theorem State.popSp_mem (s : State) : (s.popSp).mem = s.mem := rfl
@[simp] theorem State.popSp_tcount (s : State) : (s.popSp).tcount = s.tcount := rfl
@[simp] theorem State.popSp_tov (s : State) : (s.popSp).tov = s.tov := rfl
@[simp] theorem State.popSp_tprev (s : State) : (s.popSp).tprev = s.tprev := rfl
@[simp] theorem State.popSp_pmode (s : State) : (s.popSp).pmode = s.pmode := rfl
@[simp] theorem State.popSp_ly (s : State) : (s.popSp).ly = s.ly := rfl
@[simp] theorem State.popSp_pcnt (s : State) : (s.popSp).pcnt = s.pcnt := rfl
@[simp] theorem State.popSp_events (s : State) : (s.popSp).events = s.events := rfl

/-! ### jump -/

@[simp] theorem State.jump_a (s : State) (v : Word) : (s.jump v).a = s.a := rfl
@[simp] theorem State.jump_f (s : State) (v : Word) : (s.jump v).f = s.f := rfl
@[simp] theorem State.jump_b (s : State) (v : Word) : (s.jump v).b = s.b := rfl
@[simp] theorem State.jump_c (s : State) (v : Word) : (s.jump v).c = s.c := rfl
@[simp] theorem State.jump_d (s : State) (v : Word) : (s.jump v).d = s.d := rfl
@[simp] theorem State.jump_e (s : State) (v : Word) : (s.jump v).e = s.e := rfl
@[simp] theorem State.jump_h (s : State) (v : Word) : (s.jump v).h = s.h := rfl
@[simp] theorem State.jump_l (s : State) (v : Word) : (s.jump v).l = s.l := rfl
@[simp] theorem State.jump_pc (s : State) (v : Word) : (s.jump v).pc = v := rfl
@[simp] theorem State.jump_sp (s : State) (v : Word) : (s.jump v).sp = s.sp := rfl
@[simp] theorem State.jump_ime (s : State) (v : Word) : (s.jump v).ime = s.ime := rfl
@[simp] theorem State.jump_eiPending (s : State) (v : Word) : (s.jump v).eiPending = s.eiPending := rfl
@[simp] theorem State.jump_halted (s : State) (v : Word) : (s.jump v).halted = s.halted := rfl
@[simp] theorem State.jump_stopped (s : State) (v : Word) : (s.jump v).stopped = s.stopped := rfl
@[simp] theorem State.jump_fault (s : State) (v : Word) : (s.jump v).fault = s.fault := rfl
@[simp] theorem State.jump_cycles (s : State) (v : Word) : (s.jump v).cycles = s.cycles := rfl
@[simp] theorem State.jump_mem (s : State) (v : Word) : (s.jump v).mem = s.mem := rfl
@[simp] theorem State.jump_tcount (s : State) (v : Word) : (s.jump v).tcount = s.tcount := rfl
@[simp] theorem State.jump_tov (s : State) (v : Word) : (s.jump v).tov = s.tov := rfl
@[simp] theorem State.jump_tprev (s : State) (v : Word) : (s.jump v).tprev = s.tprev := rfl
@[simp] theorem State.jump_pmode (s : State) (v : Word) : (s.jump v).pmode = s.pmode := rfl
@[simp] theorem State.jump_ly (s : State) (v : Word) : (s.jump v).ly = s.ly := rfl
@[simp] theorem State.jump_pcnt (s : State) (v : Word) : (s.jump v).pcnt = s.pcnt := rfl
@[simp] theorem State.jump_events (s : State) (v : Word) : (s.jump v).events = s.events := rfl

/-! ### emit -/

@[simp] theorem State.emit_a (s : State) (v : List DisplayEvent) : (s.emit v).a = s.a := rfl
@[simp] theorem State.emit_f (s : State) (v : List DisplayEvent) : (s.emit v).f = s.f := rfl
@[simp] theorem State.emit_b (s : State) (v : List DisplayEvent) : (s.emit v).b = s.b := rfl
@[simp] theorem State.emit_c (s : State) (v : List DisplayEvent) : (s.emit v).c = s.c := rfl
@[simp] theorem State.emit_d (s : State) (v : List DisplayEvent) : (s.emit v).d = s.d := rfl
@[simp] theorem State.emit_e (s : State) (v : List DisplayEvent) : (s.emit v).e = s.e := rfl
@[simp] theorem State.emit_h (s : State) (v : List DisplayEvent) : (s.emit v).h = s.h := rfl
@[simp] theorem State.emit_l (s : State) (v : List DisplayEvent) : (s.emit v).l = s.l := rfl
@[simp] theorem State.emit_pc (s : State) (v : List DisplayEvent) : (s.emit v).pc = s.pc := rfl
@[simp] theorem State.emit_sp (s : State) (v : List DisplayEvent) : (s.emit v).sp = s.sp := rfl
@[simp] theorem State.emit_ime (s : State) (v : List DisplayEvent) : (s.emit v).ime = s.ime := rfl
@[simp] theorem State.emit_eiPending (s : State) (v : List DisplayEvent) : (s.emit v).eiPending = s.eiPending := rfl
@[simp] theorem State.emit_halted (s : State) (v : List DisplayEvent) : (s.emit v).halted = s.halted := rfl
@[simp] theorem State.emit_stopped (s : State) (v : List DisplayEvent) : (s.emit v).stopped = s.stopped := rfl
@[simp] theorem State.emit_fault (s : State) (v : List DisplayEvent) : (s.emit v).fault = s.fault := rfl
@[simp] theorem State.emit_cycles (s : State) (v : List DisplayEvent) : (s.emit v).cycles = s.cycles := rfl
@[simp] theorem State.emit_mem (s : State) (v : List DisplayEvent) : (s.emit v).mem = s.mem := rfl
@[simp] theorem State.emit_tcount (s : State) (v : List DisplayEvent) : (s.emit v).tcount = s.tcount := rfl
@[simp] theorem State.emit_tov (s : State) (v : List DisplayEvent) : (s.emit v).tov = s.tov := rfl
@[simp] theorem State.emit_tprev (s : State) (v : List DisplayEvent) : (s.emit v).tprev = s.tprev := rfl
@[simp] theorem State.emit_pmode (s : State) (v : List DisplayEvent) : (s.emit v).pmode = s.pmode := rfl
@[simp] theorem State.emit_ly (s : State) (v : List DisplayEvent) : (s.emit v).ly = s.ly := rfl
@[simp] theorem State.emit_pcnt (s : State) (v : List DisplayEvent) : (s.emit v).pcnt = s.pcnt := rfl
@[simp] theorem State.emit_events (s : State) (v : List DisplayEvent) : (s.emit v).events = s.events ++ v := rfl

/-! ### memWrite -/

@[simp] theorem State.memWrite_a (s : State) (x : Word) (v : Byte) : (s.memWrite x v).a = s.a := by unfold State.memWrite; split <;> rfl
@[simp] theorem State.memWrite_f (s : State) (x : Word) (v : Byte) : (s.memWrite x v).f = s.f := by unfold State.memWrite; split <;> rfl
@[simp] theorem State.memWrite_b (s : State) (x : Word) (v : Byte) : (s.memWrite x v).b = s.b := by unfold State.memWrite; split <;> rfl
@[simp] theorem State.memWrite_c (s : State) (x : Word) (v : Byte) : (s.memWrite x v).c = s.c := by unfold State.memWrite; split <;> rfl
@[simp] theorem State.memWrite_d (s : State) (x : Word) (v : Byte) : (s.memWrite x v).d = s.d := by unfold State.memWrite; split <;> rfl
@[simp] theorem State.memWrite_e (s : State) (x : Word) (v : Byte) : (s.memWrite x v).e = s.e := by unfold State.memWrite; split <;> rfl
@[simp] theorem State.memWrite_h (s : State) (x : Word) (v : Byte) : (s.memWrite x v).h = s.h := by unfold State.memWrite; split <;> rfl
@[simp] theorem State.memWrite_l (s : State) (x : Word) (v : Byte) : (s.memWrite x v).l = s.l := by unfold State.memWrite; split <;> rfl
@[simp] theorem State.memWrite_pc (s : State) (x : Word) (v : Byte) : (s.memWrite x v).pc = s.pc := by unfold State.memWrite; split <;> rfl
@[simp] theorem State.memWrite_sp (s : State) (x : Word) (v : Byte) : (s.memWrite x v).sp = s.sp := by unfold State.memWrite; split <;> rfl
@[simp] theorem State.memWrite_ime (s : State) (x : Word) (v : Byte) : (s.memWrite x v).ime = s.ime := by unfold State.memWrite; split <;> rfl
@[simp] theorem State.memWrite_eiPending (s : State) (x : Word) (v : Byte) : (s.memWrite x v).eiPending = s.eiPending := by unfold State.memWrite; split <;> rfl
@[simp] theorem State.memWrite_halted (s : State) (x : Word) (v : Byte) : (s.memWrite x v).halted = s.halted := by unfold State.memWrite; split <;> rfl
@[simp] theorem State.memWrite_stopped (s : State) (x : Word) (v : Byte) : (s.memWrite x v).stopped = s.stopped := by unfold State.memWrite; split <;> rfl
@[simp] theorem State.memWrite_fault (s : State) (x : Word) (v : Byte) : (s.memWrite x v).fault = s.fault := by unfold State.memWrite; split <;> rfl
@[simp] theorem State.memWrite_cycles (s : State) (x : Word) (v : Byte) : (s.memWrite x v).cycles = s.cycles := by unfold State.memWrite; split <;> rfl
@[simp] theorem State.memWrite_tcount (s : State) (x : Word) (v : Byte) : (s.memWrite x v).tcount = s.tcount := by unfold State.memWrite; split <;> rfl
@[simp] theorem State.memWrite_tov (s : State) (x : Word) (v : Byte) : (s.memWrite x v).tov = s.tov := by unfold State.memWrite; split <;> rfl
@[simp] theorem State.memWrite_tprev (s : State) (x : Word) (v : Byte) : (s.memWrite x v).tprev = s.tprev := by unfold State.memWrite; split <;> rfl
@[simp] theorem State.memWrite_pmode (s : State) (x : Word) (v : Byte) : (s.memWrite x v).pmode = s.pmode := by unfold State.memWrite; split <;> rfl
@[simp] theorem State.memWrite_ly (s : State) (x : Word) (v : Byte) : (s.memWrite x v).ly = s.ly := by unfold State.memWrite; split <;> rfl
@[simp] theorem State.memWrite_pcnt (s : State) (x : Word) (v : Byte) : (s.memWrite x v).pcnt = s.pcnt := by unfold State.memWrite; split <;> rfl
@[simp] theorem State.memWrite_events (s : State) (x : Word) (v : Byte) : (s.memWrite x v).events = s.events := by unfold State.memWrite; split <;> rfl

/-! ### push16 -/

@[simp] theorem State.push16_a (s : State) (v : Word) : (s.push16 v).a = s.a := by simp [State.push16]
@[simp] theorem State.push16_f (s : State) (v : Word) : (s.push16 v).f = s.f := by simp [State.push16]
@[simp] theorem State.push16_b (s : State) (v : Word) : (s.push16 v).b = s.b := by simp [State.push16]
@[simp] theorem State.push16_c (s : State) (v : Word) : (s.push16 v).c = s.c := by simp [State.push16]
@[simp] theorem State.push16_d (s : State) (v : Word) : (s.push16 v).d = s.d := by simp [State.push16]
@[simp] theorem State.push16_e (s : State) (v : Word) : (s.push16 v).e = s.e := by simp [State.push16]
@[simp] theorem State.push16_h (s : State) (v : Word) : (s.push16 v).h = s.h := by simp [State.push16]
@[simp] theorem State.push16_l (s : State) (v : Word) : (s.push16 v).l = s.l := by simp [State.push16]
@[simp] theorem State.push16_pc (s : State) (v : Word) : (s.push16 v).pc = s.pc := by simp [State.push16]
@[simp] theorem State.push16_sp (s : State) (v : Word) : (s.push16 v).sp = s.sp - 2 := rfl
@[simp] theorem State.push16_ime (s : State) (v : Word) : (s.push16 v).ime = s.ime := by simp [State.push16]
@[simp] theorem State.push16_eiPending (s : State) (v : Word) : (s.push16 v).eiPending = s.eiPending := by simp [State.push16]
@[simp] theorem State.push16_halted (s : State) (v : Word) : (s.push16 v).halted = s.halted := by simp [State.push16]
@[simp] theorem State.push16_stopped (s : State) (v : Word) : (s.push16 v).stopped = s.stopped := by simp [State.push16]
@[simp] theorem State.push16_fault (s : State) (v : Word) : (s.push16 v).fault = s.fault := by simp [State.push16]
@[simp] theorem State.push16_cycles (s : State) (v : Word) : (s.push16 v).cycles = s.cycles := by simp [State.push16]
@[simp] theorem State.push16_tcount (s : State) (v : Word) : (s.push16 v).tcount = s.tcount := by simp [State.push16]
@[simp] theorem State.push16_tov (s : State) (v : Word) : (s.push16 v).tov = s.tov := by simp [State.push16]
@[simp] theorem State.push16_tprev (s : State) (v : Word) : (s.push16 v).tprev = s.tprev := by simp [State.push16]
@[simp] theorem State.push16_pmode (s : State) (v : Word) : (s.push16 v).pmode = s.pmode := by simp [State.push16]
@[simp] theorem State.push16_ly (s : State) (v : Word) : (s.push16 v).ly = s.ly := by simp [State.push16]
@[simp] theorem State.push16_pcnt (s : State) (v : Word) : (s.push16 v).pcnt = s.pcnt := by simp [State.push16]
@[simp] theorem State.push16_events (s : State) (v : Word) : (s.push16 v).events = s.events := by simp [State.push16]

/-! ### requestInterrupt -/

@[simp] theorem requestInterrupt_a (k : Irq) (s : State) : (requestInterrupt k s).a = s.a := by
  simp [requestInterrupt]
@[simp] theorem requestInterrupt_f (k : Irq) (s : State) : (requestInterrupt k s).f = s.f := by
  simp [requestInterrupt]
@[simp] theorem requestInterrupt_b (k : Irq) (s : State) : (requestInterrupt k s).b = s.b := by
  simp [requestInterrupt]
@[simp] theorem requestInterrupt_c (k : Irq) (s : State) : (requestInterrupt k s).c = s.c := by
  simp [requestInterrupt]
@[simp] theorem requestInterrupt_d (k : Irq) (s : State) : (requestInterrupt k s).d = s.d := by
  simp [requestInterrupt]
@[simp] theorem requestInterrupt_e (k : Irq) (s : State) : (requestInterrupt k s).e = s.e := by
  simp [requestInterrupt]
@[simp] theorem requestInterrupt_h (k : Irq) (s : State) : (requestInterrupt k s).h = s.h := by
  simp [requestInterrupt]
@[simp] theorem requestInterrupt_l (k : Irq) (s : State) : (requestInterrupt k s).l = s.l := by
  simp [requestInterrupt]
@[simp] theorem requestInterrupt_pc (k : Irq) (s : State) : (requestInterrupt k s).pc = s.pc := by
  simp [requestInterrupt]
@[simp] theorem requestInterrupt_sp (k : Irq) (s : State) : (requestInterrupt k s).sp = s.sp := by
  simp [requestInterrupt]
@[simp] theorem requestInterrupt_ime (k : Irq) (s : State) : (requestInterrupt k s).ime = s.ime := by
  simp [requestInterrupt]
@[simp] theorem requestInterrupt_eiPending (k : Irq) (s : State) : (requestInterrupt k s).eiPending = s.eiPending := by
  simp [requestInterrupt]
@[simp] theorem requestInterrupt_halted (k : Irq) (s : State) : (requestInterrupt k s).halted = s.halted := by
  simp [requestInterrupt]
@[simp] theorem requestInterrupt_stopped (k : Irq) (s : State) : (requestInterrupt k s).stopped = s.stopped := by
  simp [requestInterrupt]
@[simp] theorem requestInterrupt_fault (k : Irq) (s : State) : (requestInterrupt k s).fault = s.fault := by
  simp [requestInterrupt]
@[simp] theorem requestInterrupt_cycles (k : Irq) (s : State) : (requestInterrupt k s).cycles = s.cycles := by
  simp [requestInterrupt]
@[simp] theorem requestInterrupt_tcount (k : Irq) (s : State) : (requestInterrupt k s).tcount = s.tcount := by
  simp [requestInterrupt]
@[simp] theorem requestInterrupt_tov (k : Irq) (s : State) : (requestInterrupt k s).tov = s.tov := by
  simp [requestInterrupt]
@[simp] theorem requestInterrupt_tprev (k : Irq) (s : State) : (requestInterrupt k s).tprev = s.tprev := by
  simp [requestInterrupt]
@[simp] theorem requestInterrupt_pmode (k : Irq) (s : State) : (requestInterrupt k s).pmode = s.pmode := by
  simp [requestInterrupt]
@[simp] theorem requestInterrupt_ly (k : Irq) (s : State) : (requestInterrupt k s).ly = s.ly := by
  simp [requestInterrupt]
@[simp] theorem requestInterrupt_pcnt (k : Irq) (s : State) : (requestInterrupt k s).pcnt = s.pcnt := by
  simp [requestInterrupt]
@[simp] theorem requestInterrupt_events (k : Irq) (s : State) : (requestInterrupt k s).events = s.events := by
  simp [requestInterrupt]

/-! ### Selector writes leave the other fields alone -/

@[simp] theorem State.setReg_f (s : State) (r : R8) (v : Byte) : (s.setReg r v).f = s.f := by cases r <;> rfl
@[simp] theorem State.setReg_pc (s : State) (r : R8) (v : Byte) : (s.setReg r v).pc = s.pc := by cases r <;> rfl
@[simp] theorem State.setReg_sp (s : State) (r : R8) (v : Byte) : (s.setReg r v).sp = s.sp := by cases r <;> rfl
@[simp] theorem State.setReg_ime (s : State) (r : R8) (v : Byte) : (s.setReg r v).ime = s.ime := by cases r <;> rfl
@[simp] theorem State.setReg_eiPending (s : State) (r : R8) (v : Byte) : (s.setReg r v).eiPending = s.eiPending := by cases r <;> rfl
@[simp] theorem State.setReg_halted (s : State) (r : R8) (v : Byte) : (s.setReg r v).halted = s.halted := by cases r <;> rfl
@[simp] theorem State.setReg_stopped (s : State) (r : R8) (v : Byte) : (s.setReg r v).stopped = s.stopped := by cases r <;> rfl
@[simp] theorem State.setReg_fault (s : State) (r : R8) (v : Byte) : (s.setReg r v).fault = s.fault := by cases r <;> rfl
@[simp] theorem State.setReg_cycles (s : State) (r : R8) (v : Byte) : (s.setReg r v).cycles = s.cycles := by cases r <;> rfl
@[simp] theorem State.setReg_mem (s : State) (r : R8) (v : Byte) : (s.setReg r v).mem = s.mem := by cases r <;> rfl
@[simp] theorem State.setReg_tcount (s : State) (r : R8) (v : Byte) : (s.setReg r v).tcount = s.tcount := by cases r <;> rfl
@[simp] theorem State.setReg_tov (s : State) (r : R8) (v : Byte) : (s.setReg r v).tov = s.tov := by cases r <;> rfl
@[simp] theorem State.setReg_tprev (s : State) (r : R8) (v : Byte) : (s.setReg r v).tprev = s.tprev := by cases r <;> rfl
@[simp] theorem State.setReg_pmode (s : State) (r : R8) (v : Byte) : (s.setReg r v).pmode = s.pmode := by cases r <;> rfl
@[simp] theorem State.setReg_ly (s : State) (r : R8) (v : Byte) : (s.setReg r v).ly = s.ly := by cases r <;> rfl
@[simp] theorem State.setReg_pcnt (s : State) (r : R8) (v : Byte) : (s.setReg r v).pcnt = s.pcnt := by cases r <;> rfl
@[simp] theorem State.setReg_events (s : State) (r : R8) (v : Byte) : (s.setReg r v).events = s.events := by cases r <;> rfl

@[simp] theorem State.setPair_a (s : State) (r : R16) (v : Word) : (s.setPair r v).a = s.a := by cases r <;> rfl
@[simp] theorem State.setPair_f (s : State) (r : R16) (v : Word) : (s.setPair r v).f = s.f := by cases r <;> rfl
@[simp] theorem State.setPair_pc (s : State) (r : R16) (v : Word) : (s.setPair r v).pc = s.pc := by cases r <;> rfl
@[simp] theorem State.setPair_ime (s : State) (r : R16) (v : Word) : (s.setPair r v).ime = s.ime := by cases r <;> rfl
@[simp] theorem State.setPair_eiPending (s : State) (r : R16) (v : Word) : (s.setPair r v).eiPending = s.eiPending := by cases r <;> rfl
@[simp] theorem State.setPair_halted (s : State) (r : R16) (v : Word) : (s.setPair r v).halted = s.halted := by cases r <;> rfl
@[simp] theorem State.setPair_stopped (s : State) (r : R16) (v : Word) : (s.setPair r v).stopped = s.stopped := by cases r <;> rfl
@[simp] theorem State.setPair_fault (s : State) (r : R16) (v : Word) : (s.setPair r v).fault = s.fault := by cases r <;> rfl
@[simp] theorem State.setPair_cycles (s : State) (r : R16) (v : Word) : (s.setPair r v).cycles = s.cycles := by cases r <;> rfl
@[simp] theorem State.setPair_mem (s : State) (r : R16) (v : Word) : (s.setPair r v).mem = s.mem := by cases r <;> rfl
@[simp] theorem State.setPair_tcount (s : State) (r : R16) (v : Word) : (s.setPair r v).tcount = s.tcount := by cases r <;> rfl
@[simp] theorem State.setPair_tov (s : State) (r : R16) (v : Word) : (s.setPair r v).tov = s.tov := by cases r <;> rfl
@[simp] theorem State.setPair_tprev (s : State) (r : R16) (v : Word) : (s.setPair r v).tprev = s.tprev := by cases r <;> rfl
@[simp] theorem State.setPair_pmode (s : State) (r : R16) (v : Word) : (s.setPair r v).pmode = s.pmode := by cases r <;> rfl
@[simp] theorem State.setPair_ly (s : State) (r : R16) (v : Word) : (s.setPair r v).ly = s.ly := by cases r <;> rfl
@[simp] theorem State.setPair_pcnt (s : State) (r : R16) (v : Word) : (s.setPair r v).pcnt = s.pcnt := by cases r <;> rfl
@[simp] theorem State.setPair_events (s : State) (r : R16) (v : Word) : (s.setPair r v).events = s.events := by cases r <;> rfl

@[simp] theorem State.setStkPair_pc (s : State) (r : R16Stk) (v : Word) : (s.setStkPair r v).pc = s.pc := by cases r <;> rfl
@[simp] theorem State.setStkPair_sp (s : State) (r : R16Stk) (v : Word) : (s.setStkPair r v).sp = s.sp := by cases r <;> rfl
@[simp] theorem State.setStkPair_ime (s : State) (r : R16Stk) (v : Word) : (s.setStkPair r v).ime = s.ime := by cases r <;> rfl
@[simp] theorem State.setStkPair_eiPending (s : State) (r : R16Stk) (v : Word) : (s.setStkPair r v).eiPending = s.eiPending := by cases r <;> rfl
@[simp] theorem State.setStkPair_halted (s : State) (r : R16Stk) (v : Word) : (s.setStkPair r v).halted = s.halted := by cases r <;> rfl
@[simp] theorem State.setStkPair_stopped (s : State) (r : R16Stk) (v : Word) : (s.setStkPair r v).stopped = s.stopped := by cases r <;> rfl
@[simp] theorem State.setStkPair_fault (s : State) (r : R16Stk) (v : Word) : (s.setStkPair r v).fault = s.fault := by cases r <;> rfl
@[simp] theorem State.setStkPair_cycles (s : State) (r : R16Stk) (v : Word) : (s.setStkPair r v).cycles = s.cycles := by cases r <;> rfl
@[simp] theorem State.setStkPair_mem (s : State) (r : R16Stk) (v : Word) : (s.setStkPair r v).mem = s.mem := by cases r <;> rfl
@[simp] theorem State.setStkPair_tcount (s : State) (r : R16Stk) (v : Word) : (s.setStkPair r v).tcount = s.tcount := by cases r <;> rfl
@[simp] theorem State.setStkPair_tov (s : State) (r : R16Stk) (v : Word) : (s.setStkPair r v).tov = s.tov := by cases r <;> rfl
@[simp] theorem State.setStkPair_tprev (s : State) (r : R16Stk) (v : Word) : (s.setStkPair r v).tprev = s.tprev := by cases r <;> rfl
@[simp] theorem State.setStkPair_pmode (s : State) (r : R16Stk) (v : Word) : (s.setStkPair r v).pmode = s.pmode := by cases r <;> rfl
@[simp] theorem State.setStkPair_ly (s : State) (r : R16Stk) (v : Word) : (s.setStkPair r v).ly = s.ly := by cases r <;> rfl
@[simp] theorem State.setStkPair_pcnt (s : State) (r : R16Stk) (v : Word) : (s.setStkPair r v).pcnt = s.pcnt := by cases r <;> rfl
@[simp] theorem State.setStkPair_events (s : State) (r : R16Stk) (v : Word) : (s.setStkPair r v).events = s.events := by cases r <;> rfl


/-! ### Registers by selector -/

@[simp] theorem State.reg_setReg_same (s : State) (r : R8) (v : Byte) : (s.setReg r v).reg r = v := by
  cases r <;> rfl

theorem State.reg_setReg_other (s : State) {r q : R8} (v : Byte) (h : q ≠ r) : (s.setReg r v).reg q = s.reg q := by
  cases r <;> cases q <;> first | rfl | exact absurd rfl h

/-- Writing a register changes that register and nothing else. -/
theorem State.setReg_keeps (s : State) (r : R8) (v : Byte) :
    s.setReg r v = { s with a := (s.setReg r v).a, b := (s.setReg r v).b, c := (s.setReg r v).c,
                            d := (s.setReg r v).d, e := (s.setReg r v).e, h := (s.setReg r v).h,
                            l := (s.setReg r v).l } := by
  cases r <;> rfl

/-! ### Pairs (10_state.md R21) -/

theorem wordOf_getLsbD (hi lo : Byte) (i : Nat) :
    (wordOf hi lo).getLsbD i = if i < 8 then lo.getLsbD i else hi.getLsbD (i - 8) := by
  change (hi ++ lo : BitVec (8 + 8)).getLsbD i = _
  rw [BitVec.getLsbD_append]

theorem wordOf_toNat (hi lo : Byte) : (wordOf hi lo).toNat = hi.toNat * 256 + lo.toNat := by
  change (hi ++ lo : BitVec (8 + 8)).toNat = _
  rw [BitVec.toNat_append, ← Nat.shiftLeft_add_eq_or_of_lt lo.isLt, Nat.shiftLeft_eq]

theorem hiByte_toNat (w : Word) : (hiByte w).toNat = w.toNat / 256 := by
  have := w.isLt
  simp only [hiByte, BitVec.extractLsb'_toNat, Nat.shiftRight_eq_div_pow]
  omega

theorem loByte_toNat (w : Word) : (loByte w).toNat = w.toNat % 256 := by
  simp only [loByte, BitVec.extractLsb'_toNat, Nat.shiftRight_zero]

@[simp] theorem hiByte_wordOf (hi lo : Byte) : hiByte (wordOf hi lo) = hi := by
  apply BitVec.eq_of_toNat_eq
  rw [hiByte_toNat, wordOf_toNat]
  have := lo.isLt
  omega

@[simp] theorem loByte_wordOf (hi lo : Byte) : loByte (wordOf hi lo) = lo := by
  apply BitVec.eq_of_toNat_eq
  rw [loByte_toNat, wordOf_toNat]
  have := lo.isLt
  omega

@[simp] theorem wordOf_hiByte_loByte (w : Word) : wordOf (hiByte w) (loByte w) = w := by
  apply BitVec.eq_of_toNat_eq
  rw [wordOf_toNat, hiByte_toNat, loByte_toNat]
  omega

@[simp] theorem State.bc_setBc (s : State) (v : Word) : (s.setBc v).bc = v := by simp [State.bc]
@[simp] theorem State.de_setDe (s : State) (v : Word) : (s.setDe v).de = v := by simp [State.de]
@[simp] theorem State.hl_setHl (s : State) (v : Word) : (s.setHl v).hl = v := by simp [State.hl]

@[simp] theorem State.pair_setPair (s : State) (rr : R16) (v : Word) : (s.setPair rr v).pair rr = v := by
  cases rr <;> simp [State.pair, State.setPair]

/-! ### Memory reads after updates that do not write memory -/

@[simp] theorem State.memRead_spend (s : State) (n : Nat) (y : Word) : (s.spend n).memRead y = s.memRead y := rfl
@[simp] theorem State.memRead_setF (s : State) (v : Byte) (y : Word) : (s.setF v).memRead y = s.memRead y := rfl
@[simp] theorem State.memRead_setFlags (s : State) (z n h c : Bool) (y : Word) : (s.setFlags z n h c).memRead y = s.memRead y := rfl
@[simp] theorem State.memRead_setAluFlags (s : State) (r : AluOut) (y : Word) : (s.setAluFlags r).memRead y = s.memRead y := rfl
@[simp] theorem State.memRead_setAcc (s : State) (r : AluOut) (y : Word) : (s.setAcc r).memRead y = s.memRead y := rfl
@[simp] theorem State.memRead_setAf (s : State) (v : Word) (y : Word) : (s.setAf v).memRead y = s.memRead y := rfl
@[simp] theorem State.memRead_setBc (s : State) (v : Word) (y : Word) : (s.setBc v).memRead y = s.memRead y := rfl
@[simp] theorem State.memRead_setDe (s : State) (v : Word) (y : Word) : (s.setDe v).memRead y = s.memRead y := rfl
@[simp] theorem State.memRead_setHl (s : State) (v : Word) (y : Word) : (s.setHl v).memRead y = s.memRead y := rfl
@[simp] theorem State.memRead_popSp (s : State) (y : Word) : (s.popSp).memRead y = s.memRead y := rfl
@[simp] theorem State.memRead_jump (s : State) (v : Word) (y : Word) : (s.jump v).memRead y = s.memRead y := rfl
@[simp] theorem State.memRead_emit (s : State) (v : List DisplayEvent) (y : Word) : (s.emit v).memRead y = s.memRead y := rfl

@[simp] theorem State.memRead_setReg (s : State) (r : R8) (v : Byte) (y : Word) :
    (s.setReg r v).memRead y = s.memRead y := by
  cases r <;> rfl

@[simp] theorem State.memRead_setPair (s : State) (rr : R16) (v : Word) (y : Word) :
    (s.setPair rr v).memRead y = s.memRead y := by
  cases rr <;> rfl

end Sys2Proof.Machine
end

