-- ==== Sys2Proof/Laws/Decode.lean ====
section
/-! SUPPORT. Laws of the decoder: the selectors, reading an instruction of one, two or three bytes, and the rows of
opcode_table.json, which the decoder follows on every byte of both pages. -/

namespace Sys2Proof

@[simp] theorem R8.ofCode_code (r : R8) : R8.ofCode r.code = some r := by cases r <;> rfl
@[simp] theorem R16.ofCode_code (r : R16) : R16.ofCode r.code = r := by cases r <;> rfl
@[simp] theorem R16Stk.ofCode_code (r : R16Stk) : R16Stk.ofCode r.code = r := by cases r <;> rfl
@[simp] theorem Cond.ofCode_code (cc : Cond) : Cond.ofCode cc.code = cc := by cases cc <;> rfl

theorem R8.code_ofCode {k : BitVec 3} {r : R8} (h : R8.ofCode k = some r) : r.code = k := by
  revert k r; decide
theorem R8.ofCode_none {k : BitVec 3} (h : R8.ofCode k = none) : k = 6 := by
  revert k; decide
@[simp] theorem R16.code_ofCode (k : BitVec 2) : (R16.ofCode k).code = k := by
  revert k; decide
@[simp] theorem R16Stk.code_ofCode (k : BitVec 2) : (R16Stk.ofCode k).code = k := by
  revert k; decide
@[simp] theorem Cond.code_ofCode (k : BitVec 2) : (Cond.ofCode k).code = k := by
  revert k; decide

/-! ### The rows of opcode_table.json -/

/-- A row of the table: the mask and the value of its opcode byte, whether code 6 is excluded from its selector in bits 5:3
and from the one in bits 2:0, and its number of bytes. For a second-page row the byte is the one after the prefix. -/
structure TableRow where
  mask : Nat
  value : Nat
  skipY : Bool
  skipZ : Bool
  bytes : Nat
  deriving DecidableEq, Repr

/-- The byte is the row's. -/
def TableRow.holds (r : TableRow) (op : Nat) : Bool :=
  Nat.beq (op &&& r.mask) r.value && !(r.skipY && Nat.beq (op / 8 % 8) 6) && !(r.skipZ && Nat.beq (op % 8) 6)

/-- The rows a byte is of, by place in the table (counted from `k`), with their number of bytes. -/
def rowsOf (op : Nat) : Nat → List TableRow → List (Nat × Nat)
  | _, [] => []
  | k, r :: rs => if r.holds op then (k, r.bytes) :: rowsOf op (k + 1) rs else rowsOf op (k + 1) rs

/-- The first-page rows, in the table's order: the order of the constructors of `Instr`. -/
def firstPageRows : List TableRow :=
  [⟨0xFF, 0x00, false, false, 1⟩, ⟨0xFF, 0x10, false, false, 2⟩, ⟨0xFF, 0x76, false, false, 1⟩, ⟨0xFF, 0xF3, false, false, 1⟩,
   ⟨0xFF, 0xFB, false, false, 1⟩, ⟨0xC0, 0x40, true, true, 1⟩, ⟨0xC7, 0x06, true, false, 2⟩, ⟨0xC7, 0x46, true, false, 1⟩,
   ⟨0xF8, 0x70, false, true, 1⟩, ⟨0xFF, 0x36, false, false, 2⟩, ⟨0xFF, 0x0A, false, false, 1⟩, ⟨0xFF, 0x1A, false, false, 1⟩,
   ⟨0xFF, 0x02, false, false, 1⟩, ⟨0xFF, 0x12, false, false, 1⟩, ⟨0xFF, 0xFA, false, false, 3⟩, ⟨0xFF, 0xEA, false, false, 3⟩] ++
  [⟨0xFF, 0xF0, false, false, 2⟩, ⟨0xFF, 0xE0, false, false, 2⟩, ⟨0xFF, 0xF2, false, false, 1⟩, ⟨0xFF, 0xE2, false, false, 1⟩,
   ⟨0xFF, 0x22, false, false, 1⟩, ⟨0xFF, 0x32, false, false, 1⟩, ⟨0xFF, 0x2A, false, false, 1⟩, ⟨0xFF, 0x3A, false, false, 1⟩,
   ⟨0xCF, 0x01, false, false, 3⟩, ⟨0xFF, 0x08, false, false, 3⟩, ⟨0xFF, 0xF9, false, false, 1⟩, ⟨0xCF, 0xC5, false, false, 1⟩,
   ⟨0xCF, 0xC1, false, false, 1⟩, ⟨0xF8, 0x80, false, true, 1⟩, ⟨0xFF, 0x86, false, false, 1⟩, ⟨0xFF, 0xC6, false, false, 2⟩] ++
  [⟨0xF8, 0x88, false, true, 1⟩, ⟨0xFF, 0x8E, false, false, 1⟩, ⟨0xFF, 0xCE, false, false, 2⟩, ⟨0xF8, 0x90, false, true, 1⟩,
   ⟨0xFF, 0x96, false, false, 1⟩, ⟨0xFF, 0xD6, false, false, 2⟩, ⟨0xF8, 0x98, false, true, 1⟩, ⟨0xFF, 0x9E, false, false, 1⟩,
   ⟨0xFF, 0xDE, false, false, 2⟩, ⟨0xF8, 0xA0, false, true, 1⟩, ⟨0xFF, 0xA6, false, false, 1⟩, ⟨0xFF, 0xE6, false, false, 2⟩,
   ⟨0xF8, 0xA8, false, true, 1⟩, ⟨0xFF, 0xAE, false, false, 1⟩, ⟨0xFF, 0xEE, false, false, 2⟩, ⟨0xF8, 0xB0, false, true, 1⟩] ++
  [⟨0xFF, 0xB6, false, false, 1⟩, ⟨0xFF, 0xF6, false, false, 2⟩, ⟨0xF8, 0xB8, false, true, 1⟩, ⟨0xFF, 0xBE, false, false, 1⟩,
   ⟨0xFF, 0xFE, false, false, 2⟩, ⟨0xC7, 0x04, true, false, 1⟩, ⟨0xFF, 0x34, false, false, 1⟩, ⟨0xC7, 0x05, true, false, 1⟩,
   ⟨0xFF, 0x35, false, false, 1⟩, ⟨0xFF, 0x27, false, false, 1⟩, ⟨0xFF, 0x2F, false, false, 1⟩, ⟨0xFF, 0x37, false, false, 1⟩,
   ⟨0xFF, 0x3F, false, false, 1⟩, ⟨0xCF, 0x09, false, false, 1⟩, ⟨0xCF, 0x03, false, false, 1⟩, ⟨0xCF, 0x0B, false, false, 1⟩] ++
  [⟨0xFF, 0xE8, false, false, 2⟩, ⟨0xFF, 0xF8, false, false, 2⟩, ⟨0xFF, 0x07, false, false, 1⟩, ⟨0xFF, 0x0F, false, false, 1⟩,
   ⟨0xFF, 0x17, false, false, 1⟩, ⟨0xFF, 0x1F, false, false, 1⟩, ⟨0xFF, 0xC3, false, false, 3⟩, ⟨0xE7, 0xC2, false, false, 3⟩,
   ⟨0xFF, 0xE9, false, false, 1⟩, ⟨0xFF, 0x18, false, false, 2⟩, ⟨0xE7, 0x20, false, false, 2⟩, ⟨0xFF, 0xCD, false, false, 3⟩,
   ⟨0xE7, 0xC4, false, false, 3⟩, ⟨0xFF, 0xC9, false, false, 1⟩, ⟨0xE7, 0xC0, false, false, 1⟩, ⟨0xFF, 0xD9, false, false, 1⟩] ++
  [⟨0xC7, 0xC7, false, false, 1⟩, ⟨0xFF, 0xD3, false, false, 1⟩, ⟨0xFF, 0xDB, false, false, 1⟩, ⟨0xFF, 0xDD, false, false, 1⟩,
   ⟨0xFF, 0xE3, false, false, 1⟩, ⟨0xFF, 0xE4, false, false, 1⟩, ⟨0xFF, 0xEB, false, false, 1⟩, ⟨0xFF, 0xEC, false, false, 1⟩,
   ⟨0xFF, 0xED, false, false, 1⟩, ⟨0xFF, 0xF4, false, false, 1⟩, ⟨0xFF, 0xFC, false, false, 1⟩, ⟨0xFF, 0xFD, false, false, 1⟩,
   ⟨0xFF, 0xCB, false, false, 2⟩]

/-- The second-page rows, which follow them in the table. -/
def secondPageRows : List TableRow :=
  [⟨0xF8, 0x00, false, true, 2⟩, ⟨0xFF, 0x06, false, false, 2⟩, ⟨0xF8, 0x08, false, true, 2⟩, ⟨0xFF, 0x0E, false, false, 2⟩,
   ⟨0xF8, 0x10, false, true, 2⟩, ⟨0xFF, 0x16, false, false, 2⟩, ⟨0xF8, 0x18, false, true, 2⟩, ⟨0xFF, 0x1E, false, false, 2⟩,
   ⟨0xF8, 0x20, false, true, 2⟩, ⟨0xFF, 0x26, false, false, 2⟩, ⟨0xF8, 0x28, false, true, 2⟩, ⟨0xFF, 0x2E, false, false, 2⟩,
   ⟨0xF8, 0x30, false, true, 2⟩, ⟨0xFF, 0x36, false, false, 2⟩, ⟨0xF8, 0x38, false, true, 2⟩, ⟨0xFF, 0x3E, false, false, 2⟩] ++
  [⟨0xC0, 0x40, false, true, 2⟩, ⟨0xC7, 0x46, false, false, 2⟩, ⟨0xC0, 0x80, false, true, 2⟩, ⟨0xC7, 0x86, false, false, 2⟩,
   ⟨0xC0, 0xC0, false, true, 2⟩, ⟨0xC7, 0xC6, false, false, 2⟩]

/-- Operand bytes do not change the row (30_encoding.md R120). -/
theorem decodeFirstPage_row (op n1 n2 : Byte) : (decodeFirstPage op n1 n2).ctorIdx = (decodeFirstPage op 0 0).ctorIdx := by
  unfold decodeFirstPage
  split
  · unfold decodeGroup0
    rcases R8.ofCode (opY op) with _ | r
    all_goals split <;> (try split) <;> rfl
  · rfl
  · rfl
  · unfold decodeGroup3
    split <;> try rfl
    unfold aluN
    split <;> rfl

/-- Every byte is of exactly one first-page row, the row of the constructor the decoder gives (30_encoding.md R138), and has
its number of bytes. -/
theorem rowsOf_firstPage (op n1 n2 : Byte) :
    rowsOf op.toNat 0 firstPageRows = [((decodeFirstPage op n1 n2).ctorIdx, opLength op)] := by
  rw [decodeFirstPage_row]
  revert op
  decide +kernel

/-- Every byte is of exactly one second-page row, the row of the constructor the decoder gives (R133). -/
theorem rowsOf_secondPage (second : Byte) :
    rowsOf second.toNat firstPageRows.length secondPageRows = [((decodeCb second).toInstr.ctorIdx, 2)] := by
  revert second
  decide +kernel

end Sys2Proof

namespace Sys2Proof.Machine

/-- Reading an instruction of one byte. -/
theorem Reads.one {op : Byte} {i : Instr} (hl : opLength op = 1) (h : ∀ n1 n2, decodeBytes op n1 n2 = i) :
    Reads [op] i := by
  intro rest
  simp [decode, hl, h]

/-- Reading an instruction of two bytes. -/
theorem Reads.two {op n : Byte} {i : Instr} (hl : opLength op = 2) (h : ∀ n2, decodeBytes op n n2 = i) :
    Reads [op, n] i := by
  intro rest
  simp [decode, hl, h]

/-- Reading an instruction of three bytes. -/
theorem Reads.three {op n m : Byte} {i : Instr} (hl : opLength op = 3) (h : decodeBytes op n m = i) :
    Reads [op, n, m] i := by
  intro rest
  simp [decode, hl, h]

/-- Reading a second-page instruction (30_encoding.md R133, R135). -/
theorem Reads.cb {second : Byte} {i : Instr} (h : (decodeCb second).toInstr = i) : Reads [0xCB, second] i :=
  .two rfl fun _ => h

/-- A 16-bit operand is put back together from its bytes (30_encoding.md R128). -/
@[simp] theorem wordOf_extract (w : Word) : wordOf (w.extractLsb' 8 8) (w.extractLsb' 0 8) = w := wordOf_hiByte_loByte w

end Sys2Proof.Machine
end

