-- ==== Sys2Proof/Laws/Flags.lean ====
section
/-! SUPPORT. Laws of the flags register and of the ALU computations. -/

namespace Sys2Proof.Machine

theorem packFlags_masked (z n h c : Bool) : packFlags z n h c &&& 0xF0 = packFlags z n h c := by
  cases z <;> cases n <;> cases h <;> cases c <;> rfl

theorem packFlags_low (z n h c : Bool) : packFlags z n h c &&& 0x0F = 0 := by
  cases z <;> cases n <;> cases h <;> cases c <;> rfl

@[simp] theorem masked_low (v : Byte) : v &&& 0xF0 &&& 0x0F = 0 := by
  rw [BitVec.and_assoc]
  exact BitVec.and_zero

theorem packFlags_bits : ∀ z n h c : Bool,
    (packFlags z n h c &&& 0xF0).getLsbD 7 = z ∧ (packFlags z n h c &&& 0xF0).getLsbD 6 = n ∧
    (packFlags z n h c &&& 0xF0).getLsbD 5 = h ∧ (packFlags z n h c &&& 0xF0).getLsbD 4 = c := by decide

@[simp] theorem State.fZ_setFlags (s : State) (z n h c : Bool) : (s.setFlags z n h c).fZ = z :=
  (packFlags_bits z n h c).1

@[simp] theorem State.fN_setFlags (s : State) (z n h c : Bool) : (s.setFlags z n h c).fN = n :=
  (packFlags_bits z n h c).2.1

@[simp] theorem State.fH_setFlags (s : State) (z n h c : Bool) : (s.setFlags z n h c).fH = h :=
  (packFlags_bits z n h c).2.2.1

@[simp] theorem State.fC_setFlags (s : State) (z n h c : Bool) : (s.setFlags z n h c).fC = c :=
  (packFlags_bits z n h c).2.2.2

@[simp] theorem State.fZ_spend (s : State) (n : Nat) : (s.spend n).fZ = s.fZ := rfl
@[simp] theorem State.fN_spend (s : State) (n : Nat) : (s.spend n).fN = s.fN := rfl
@[simp] theorem State.fH_spend (s : State) (n : Nat) : (s.spend n).fH = s.fH := rfl
@[simp] theorem State.fC_spend (s : State) (n : Nat) : (s.spend n).fC = s.fC := rfl

/-- A clean F is the packing of its four flags. -/
theorem State.f_eq_packFlags {s : State} (h : s.f &&& 0x0F = 0) : s.f = packFlags s.fZ s.fN s.fH s.fC := by
  have key : ∀ f : Byte, f &&& 0x0F = 0 →
      f = packFlags (f.getLsbD 7) (f.getLsbD 6) (f.getLsbD 5) (f.getLsbD 4) := by decide
  exact key s.f h

theorem nibble_toNat (v : Byte) : (v &&& 0x0F).toNat = v.toNat % 16 := by
  have := Nat.and_two_pow_sub_one_eq_mod v.toNat 4
  simpa using this

/-- `Add8` as integers (40_arithmetic.md R161). -/
theorem add8_toNat (a b : Byte) (c : Bool) : (add8 a b c).value.toNat = (a.toNat + b.toNat + c.toNat) % 256 := by
  simp [add8]

/-- `Sub8` as integers (R162). -/
theorem sub8_toNat (a b : Byte) (c : Bool) :
    ((sub8 a b c).value.toNat : Int) = ((a.toNat : Int) - b.toNat - c.toNat) % 256 := by
  simp only [sub8, BitVec.toNat_ofInt]
  omega

end Sys2Proof.Machine
end

