-- ==== Sys2Proof/Laws/Memory.lean ====
section
/-! SUPPORT. Laws of memory: read after write, the canonical form is kept, equal reads make equal memories; and of the
bus: what a write to a protected address does. -/

namespace Sys2Proof.Machine

/-- The bound `wfFrom` checks, as a proposition. -/
def aboveBound (lo : Option Nat) (a : Nat) : Prop := ∀ b, lo = some b → b < a

theorem Memory.wfFrom_cons (lo : Option Nat) (a : Nat) (v : Byte) (m : Memory) :
    Memory.wfFrom lo ((a, v) :: m) = true ↔
      aboveBound lo a ∧ a < 65536 ∧ v ≠ Memory.unlisted ∧ Memory.wfFrom (some a) m = true := by
  cases lo <;> simp [Memory.wfFrom, aboveBound, and_assoc]

theorem Memory.wfFrom_mono {lo lo' : Option Nat} {m : Memory} (h : Memory.wfFrom lo m = true)
    (hle : ∀ a, aboveBound lo a → aboveBound lo' a) : Memory.wfFrom lo' m = true := by
  cases m with
  | nil => rfl
  | cons p m =>
    obtain ⟨a, v⟩ := p
    rw [Memory.wfFrom_cons] at h ⊢
    exact ⟨hle a h.1, h.2⟩

/-- A list all of whose addresses are above `b` reads as unlisted at `b` and below. -/
theorem Memory.read_below {b a : Nat} {m : Memory} (h : Memory.wfFrom (some b) m = true) (hab : a ≤ b) :
    Memory.read m a = Memory.unlisted := by
  induction m generalizing b with
  | nil => rfl
  | cons p m ih =>
    obtain ⟨c, v⟩ := p
    rw [Memory.wfFrom_cons] at h
    have hbc : b < c := h.1 b rfl
    rw [Memory.read, if_neg (by omega)]
    exact ih h.2.2.2 (by omega)

theorem Memory.read_cell_append (a x : Nat) (v : Byte) (m : Memory) :
    Memory.read (Memory.cell a v ++ m) x =
      if x = a ∧ v ≠ Memory.unlisted then v else Memory.read m x := by
  unfold Memory.cell
  by_cases hv : v = Memory.unlisted
  · simp [hv]
  · by_cases hx : x = a <;> simp [hv, hx, Memory.read]

/-- A read after a write to the same address gives the value written, in canonical memory. -/
theorem Memory.read_write_same {lo : Option Nat} {m : Memory} (h : Memory.wfFrom lo m = true) (a : Nat) (v : Byte) :
    Memory.read (Memory.write m a v) a = v := by
  induction m generalizing lo with
  | nil =>
    by_cases hv : v = Memory.unlisted <;> simp [Memory.write, Memory.cell, Memory.read, hv]
  | cons p m ih =>
    obtain ⟨b, w⟩ := p
    have hm := ((Memory.wfFrom_cons ..).mp h).2.2.2
    rw [Memory.write]
    split
    · rename_i hab
      rw [Memory.read_cell_append]
      by_cases hv : v = Memory.unlisted
      · rw [if_neg (by simp [hv]), Memory.read, if_neg (by omega), Memory.read_below hm (by omega), hv]
      · simp [hv]
    · split
      · rename_i hab
        rw [Memory.read_cell_append]
        by_cases hv : v = Memory.unlisted
        · rw [if_neg (by simp [hv]), Memory.read_below hm (by omega), hv]
        · simp [hv]
      · rename_i h1 h2
        rw [Memory.read, if_neg h2]
        exact ih hm

/-- A write leaves every other address alone; no premise. -/
theorem Memory.read_write_other (m : Memory) {a x : Nat} (v : Byte) (hx : x ≠ a) :
    Memory.read (Memory.write m a v) x = Memory.read m x := by
  induction m with
  | nil => by_cases hv : v = Memory.unlisted <;> simp [Memory.write, Memory.cell, Memory.read, hv, hx]
  | cons p m ih =>
    obtain ⟨b, w⟩ := p
    rw [Memory.write]
    split
    · rw [Memory.read_cell_append, if_neg (by simp [hx])]
    · split
      · rename_i hab
        rw [Memory.read_cell_append, if_neg (by simp [hx]), Memory.read, if_neg (by omega)]
      · rw [Memory.read, Memory.read, ih]

theorem Memory.wfFrom_cell_append {lo : Option Nat} {a : Nat} {m : Memory} (v : Byte) (hlo : aboveBound lo a)
    (ha : a < 65536) (h : Memory.wfFrom (some a) m = true) : Memory.wfFrom lo (Memory.cell a v ++ m) = true := by
  unfold Memory.cell
  split
  · refine Memory.wfFrom_mono h fun x hx b hb => ?_
    have h1 := hx a rfl
    have h2 := hlo b hb
    omega
  · rw [List.cons_append, List.nil_append, Memory.wfFrom_cons]
    exact ⟨hlo, ha, ‹_›, h⟩

theorem Memory.wfFrom_write {lo : Option Nat} {a : Nat} {m : Memory} (v : Byte) (h : Memory.wfFrom lo m = true)
    (hlo : aboveBound lo a) (ha : a < 65536) : Memory.wfFrom lo (Memory.write m a v) = true := by
  induction m generalizing lo with
  | nil =>
    rw [Memory.write, ← List.append_nil (Memory.cell a v)]
    exact Memory.wfFrom_cell_append v hlo ha rfl
  | cons p m ih =>
    obtain ⟨b, w⟩ := p
    have hc := (Memory.wfFrom_cons ..).mp h
    rw [Memory.write]
    split
    · rename_i hab
      refine Memory.wfFrom_cell_append v hlo ha ?_
      rw [Memory.wfFrom_cons]
      exact ⟨fun c hc' => by cases hc'; exact hab, hc.2⟩
    · split
      · rename_i hab
        subst hab
        exact Memory.wfFrom_cell_append v hlo ha hc.2.2.2
      · rw [Memory.wfFrom_cons]
        exact ⟨hc.1, hc.2.1, hc.2.2.1, ih hc.2.2.2 fun c hc' => by cases hc'; omega⟩

/-- A write keeps the canonical form. -/
theorem Memory.wf_write {m : Memory} (h : m.wf = true) {a : Nat} (ha : a < 65536) (v : Byte) :
    (m.write a v).wf = true :=
  Memory.wfFrom_write v h (fun _ hb => by cases hb) ha

/-- Placing bytes keeps the canonical form. -/
theorem Memory.wf_place {m : Memory} (h : m.wf = true) (a : Word) (vs : List Byte) : (m.place a vs).wf = true := by
  induction vs generalizing m a with
  | nil => exact h
  | cons v vs ih => exact ih (Memory.wf_write h a.isLt v) (a + 1)

/-- Reading back placed bytes that do not wrap past the top of memory. -/
theorem Memory.read_place (vs : List Byte) {m : Memory} (h : m.wf = true) (a : Word) (hl : a.toNat + vs.length ≤ 65536)
    (x : Nat) :
    (m.place a vs).read x = if a.toNat ≤ x ∧ x < a.toNat + vs.length then vs.getD (x - a.toNat) 0 else m.read x := by
  induction vs generalizing m a with
  | nil =>
    rw [if_neg (by simp only [List.length_nil]; omega)]
    rfl
  | cons v vs ih =>
    have hw := Memory.wf_write h a.isLt v
    simp only [List.length_cons] at hl ⊢
    by_cases he : vs = []
    · subst he
      simp only [Memory.place, List.length_nil]
      by_cases hx : x = a.toNat
      · subst hx
        rw [Memory.read_write_same h, if_pos (by omega), Nat.sub_self]
        rfl
      · rw [Memory.read_write_other _ _ hx, if_neg (by omega)]
    · have hp : 0 < vs.length := List.length_pos_iff.mpr he
      have ha : (a + 1).toNat = a.toNat + 1 := by
        rw [BitVec.toNat_add, show (1 : Word).toNat = 1 from rfl, Nat.mod_eq_of_lt (by omega)]
      simp only [Memory.place]
      rw [ih hw (a + 1) (by omega), ha]
      by_cases hx : x = a.toNat
      · subst hx
        rw [if_neg (by omega), Memory.read_write_same h, if_pos (by omega), Nat.sub_self]
        rfl
      · rw [Memory.read_write_other _ _ hx]
        by_cases hr : a.toNat + 1 ≤ x ∧ x < a.toNat + 1 + vs.length
        · rw [if_pos hr, if_pos (by omega), show x - a.toNat = (x - (a.toNat + 1)) + 1 by omega]
          rfl
        · rw [if_neg hr, if_neg (by omega)]

theorem Memory.wfFrom_ext {lo : Option Nat} {m m' : Memory} (h : Memory.wfFrom lo m = true)
    (h' : Memory.wfFrom lo m' = true) (hr : ∀ a, Memory.read m a = Memory.read m' a) : m = m' := by
  induction m generalizing lo m' with
  | nil =>
    cases m' with
    | nil => rfl
    | cons p m' =>
      obtain ⟨a, v⟩ := p
      have hc := (Memory.wfFrom_cons ..).mp h'
      have := hr a
      simp only [Memory.read, if_true] at this
      exact absurd this.symm hc.2.2.1
  | cons p m ih =>
    obtain ⟨a, v⟩ := p
    have hc := (Memory.wfFrom_cons ..).mp h
    cases m' with
    | nil =>
      have := hr a
      simp only [Memory.read, if_true] at this
      exact absurd this hc.2.2.1
    | cons p' m' =>
      obtain ⟨b, w⟩ := p'
      have hc' := (Memory.wfFrom_cons ..).mp h'
      have hab : a = b := by
        rcases Nat.lt_trichotomy a b with hlt | heq | hgt
        · have := hr a
          rw [Memory.read, if_pos rfl, Memory.read, if_neg (by omega),
            Memory.read_below hc'.2.2.2 (by omega)] at this
          exact absurd this hc.2.2.1
        · exact heq
        · have := hr b
          rw [Memory.read, if_neg (by omega), Memory.read_below hc.2.2.2 (by omega), Memory.read,
            if_pos rfl] at this
          exact absurd this.symm hc'.2.2.1
      subst hab
      have hvw : v = w := by have := hr a; simpa [Memory.read] using this
      subst hvw
      congr 1
      refine ih hc.2.2.2 hc'.2.2.2 fun x => ?_
      by_cases hx : x = a
      · rw [hx, Memory.read_below hc.2.2.2 (Nat.le_refl a), Memory.read_below hc'.2.2.2 (Nat.le_refl a)]
      · have := hr x
        simpa [Memory.read, hx] using this

/-- Equal memories are equal data: two canonical memories that read alike are the same list. -/
theorem Memory.ext_of_wf {m m' : Memory} (h : m.wf = true) (h' : m'.wf = true)
    (hr : ∀ a, m.read a = m'.read a) : m = m' := Memory.wfFrom_ext h h' hr

/-! ### The bus -/

/-- A write to a protected address changes nothing (20_memory.md R82). -/
theorem memWrite_protected {s : State} {a : Word} (v : Byte) (h : writeProtected a = true) : s.memWrite a v = s := by
  simp [State.memWrite, h]

/-- A bus write is an update of the memory field alone. -/
theorem memWrite_record (s : State) (a : Word) (v : Byte) :
    s.memWrite a v = { s with mem := if writeProtected a then s.mem else s.mem.write a.toNat v } := by
  unfold State.memWrite
  split <;> rfl

/-- A bus write leaves every other address alone. -/
theorem memRead_memWrite_other (s : State) {a x : Word} (v : Byte) (hx : x ≠ a) :
    (s.memWrite a v).memRead x = s.memRead x := by
  unfold State.memWrite State.memRead
  split
  · rfl
  · exact Memory.read_write_other _ _ fun h => hx (BitVec.eq_of_toNat_eq h)

/-- A bus write to an unprotected address is read back. -/
theorem memRead_memWrite_same {s : State} (hw : s.mem.wf = true) {a : Word} (v : Byte)
    (h : writeProtected a = false) : (s.memWrite a v).memRead a = v := by
  simp only [State.memWrite, h, State.memRead]
  exact Memory.read_write_same hw _ _

/-- No bus write changes a protected byte (20_memory.md R82). -/
theorem memRead_memWrite_ofProtected (s : State) (a : Word) {x : Word} (v : Byte) (h : writeProtected x = true) :
    (s.memWrite a v).memRead x = s.memRead x := by
  by_cases hx : x = a
  · subst hx; rw [memWrite_protected v h]
  · exact memRead_memWrite_other s v hx

/-- A bus write keeps the canonical form of memory. -/
theorem memWrite_wf {s : State} (h : s.mem.wf = true) (a : Word) (v : Byte) : (s.memWrite a v).mem.wf = true := by
  unfold State.memWrite
  split
  · exact h
  · exact Memory.wf_write h a.isLt v

end Sys2Proof.Machine
end

