-- ==== Sys2Proof/Laws/Effects.lean ====
section
/-! SUPPORT. Said once: everything an instruction, a dispatch and a tick can do to the parts of the state they do not own.
An instruction never touches the device half, keeps memory canonical and the protected bytes and the low nibble of F; a
tick never touches the CPU half. -/

namespace Sys2Proof.Machine

/-- What the CPU may do (10_state.md R70): everything but touch the device half, the protected bytes, the canonical form
or the low nibble of F; `cycles` never falls, and only `raiseFault` writes `fault`. -/
structure CpuEffect (s t : State) : Prop where
  devices : t.devices = s.devices
  wf : s.mem.wf = true → t.mem.wf = true
  rom : ∀ x, writeProtected x = true → t.memRead x = s.memRead x
  flags : s.FlagsClean → t.FlagsClean
  cycles : s.cycles ≤ t.cycles
  fault : t.fault = s.fault

theorem CpuEffect.refl (s : State) : CpuEffect s s := ⟨rfl, id, fun _ _ => rfl, id, Nat.le_refl _, rfl⟩

theorem CpuEffect.trans {s t u : State} (h : CpuEffect s t) (h' : CpuEffect t u) : CpuEffect s u :=
  ⟨h'.devices.trans h.devices, fun w => h'.wf (h.wf w), fun x hx => (h'.rom x hx).trans (h.rom x hx),
    fun w => h'.flags (h.flags w), h.cycles.trans h'.cycles, h'.fault.trans h.fault⟩

/-- Same devices, memory, cycles and fault, and F unchanged or masked. -/
theorem CpuEffect.ofRegs {s t : State} (hd : t.devices = s.devices) (hm : t.mem = s.mem) (hc : t.cycles = s.cycles)
    (hx : t.fault = s.fault) (hf : s.FlagsClean → t.FlagsClean) : CpuEffect s t :=
  ⟨hd, fun w => hm ▸ w, fun x _ => by simp only [State.memRead, hm], hf, hc.ge, hx⟩

theorem CpuEffect.spend (s : State) (n : Nat) : CpuEffect s (s.spend n) :=
  ⟨rfl, id, fun _ _ => rfl, id, Nat.le_add_right .., rfl⟩
theorem CpuEffect.setReg (s : State) (r : R8) (v : Byte) : CpuEffect s (s.setReg r v) := by
  cases r <;> exact .ofRegs rfl rfl rfl rfl id
theorem CpuEffect.setPair (s : State) (rr : R16) (v : Word) : CpuEffect s (s.setPair rr v) := by
  cases rr <;> exact .ofRegs rfl rfl rfl rfl id
theorem CpuEffect.setHl (s : State) (v : Word) : CpuEffect s (s.setHl v) := .ofRegs rfl rfl rfl rfl id
theorem CpuEffect.setStkPair (s : State) (rr : R16Stk) (v : Word) : CpuEffect s (s.setStkPair rr v) := by
  cases rr
  case af => exact .ofRegs rfl rfl rfl rfl fun _ => masked_low _
  all_goals exact .ofRegs rfl rfl rfl rfl id
theorem CpuEffect.setFlags (s : State) (z n h c : Bool) : CpuEffect s (s.setFlags z n h c) :=
  .ofRegs rfl rfl rfl rfl fun _ => masked_low _
theorem CpuEffect.setAluFlags (s : State) (r : AluOut) : CpuEffect s (s.setAluFlags r) := .setFlags ..
theorem CpuEffect.setAcc (s : State) (r : AluOut) : CpuEffect s (s.setAcc r) :=
  .ofRegs rfl rfl rfl rfl fun _ => masked_low _
theorem CpuEffect.memWrite (s : State) (a : Word) (v : Byte) : CpuEffect s (s.memWrite a v) :=
  ⟨by simp [State.devices], fun w => memWrite_wf w a v, fun _ hx => memRead_memWrite_ofProtected s a v hx,
    fun h => by simpa [State.FlagsClean] using h, by simp, by simp⟩
theorem CpuEffect.setAtHl (s : State) (v : Byte) : CpuEffect s (s.setAtHl v) := .memWrite ..
theorem CpuEffect.jump (s : State) (v : Word) : CpuEffect s (s.jump v) := .ofRegs rfl rfl rfl rfl id
theorem CpuEffect.popSp (s : State) : CpuEffect s s.popSp := .ofRegs rfl rfl rfl rfl id
theorem CpuEffect.push16 (s : State) (v : Word) : CpuEffect s (s.push16 v) :=
  (CpuEffect.memWrite s _ _).trans ((CpuEffect.memWrite _ _ _).trans (.ofRegs rfl rfl rfl rfl id))
theorem CpuEffect.callTo (s : State) (v : Word) : CpuEffect s (s.callTo v) := (CpuEffect.push16 s _).trans (.jump ..)
theorem CpuEffect.returnPop (s : State) : CpuEffect s s.returnPop := (CpuEffect.popSp s).trans (.jump ..)
theorem CpuEffect.loadA (s : State) (a : Word) : CpuEffect s (s.loadA a) := .ofRegs rfl rfl rfl rfl id
theorem CpuEffect.storeA (s : State) (a : Word) : CpuEffect s (s.storeA a) := .memWrite ..
theorem CpuEffect.testBit (s : State) (v : Byte) (bit : BitVec 3) : CpuEffect s (testBit v bit s) := .setFlags ..
theorem CpuEffect.memWriteWord (s : State) (a v : Word) : CpuEffect s (s.memWriteWord a v) :=
  (CpuEffect.memWrite s _ _).trans (.memWrite ..)

/-- Dispatch of an interrupt, with what it does to the CPU's control state (60_exceptions.md R370). -/
theorem CpuEffect.dispatchInterrupt (k : Irq) (s : State) : CpuEffect s (dispatchInterrupt k s) :=
  CpuEffect.trans (t := { s with ime := false }) (.ofRegs rfl rfl rfl rfl id)
    ((CpuEffect.memWrite _ _ _).trans ((CpuEffect.callTo _ _).trans (.spend ..)))

/-! ### Instructions -/

/-- What a completed instruction answers: a next state, with an effect of the CPU, at a cost of at least one cycle. -/
def Completed (s : State) (r : Result) : Prop := ∃ t, r = .next t ∧ CpuEffect s t ∧ s.cycles < t.cycles

theorem Completed.ofDone {s t : State} {cost : Nat} (h : CpuEffect s t) (hc : 0 < cost) : Completed s (done cost t) :=
  ⟨t.spend cost, rfl, h.trans (.spend ..), by have := h.cycles; simp only [State.spend_cycles]; omega⟩

/-- A conditional transfer completes whichever way it goes. -/
theorem Completed.ofBranch {s : State} {taken : Bool} {r r' : Result} (h : Completed s r) (h' : Completed s r') :
    Completed s (if taken then r else r') := by
  cases taken <;> assumption

theorem execNop_completed (s : State) : Completed s (execNop s) :=
  .ofDone (.refl _) (by decide)
theorem execStop_completed (pad : Byte) (s : State) : Completed s (execStop pad s) :=
  .ofDone (.ofRegs rfl rfl rfl rfl id) (by decide)
theorem execHalt_completed (s : State) : Completed s (execHalt s) :=
  .ofDone (.ofRegs rfl rfl rfl rfl id) (by decide)
theorem execDi_completed (s : State) : Completed s (execDi s) :=
  .ofDone (.ofRegs rfl rfl rfl rfl id) (by decide)
theorem execEi_completed (s : State) : Completed s (execEi s) :=
  .ofDone (.ofRegs rfl rfl rfl rfl id) (by decide)
theorem execLdRR_completed (dst src : R8) (s : State) : Completed s (execLdRR dst src s) :=
  .ofDone (.setReg ..) (by decide)
theorem execLdRN_completed (dst : R8) (n8 : Byte) (s : State) : Completed s (execLdRN dst n8 s) :=
  .ofDone (.setReg ..) (by decide)
theorem execLdRM_completed (dst : R8) (s : State) : Completed s (execLdRM dst s) :=
  .ofDone (.setReg ..) (by decide)
theorem execLdMR_completed (src : R8) (s : State) : Completed s (execLdMR src s) :=
  .ofDone (.setAtHl ..) (by decide)
theorem execLdMN_completed (n8 : Byte) (s : State) : Completed s (execLdMN n8 s) :=
  .ofDone (.setAtHl ..) (by decide)
theorem execLdABc_completed (s : State) : Completed s (execLdABc s) :=
  .ofDone (.loadA ..) (by decide)
theorem execLdADe_completed (s : State) : Completed s (execLdADe s) :=
  .ofDone (.loadA ..) (by decide)
theorem execLdBcA_completed (s : State) : Completed s (execLdBcA s) :=
  .ofDone (.storeA ..) (by decide)
theorem execLdDeA_completed (s : State) : Completed s (execLdDeA s) :=
  .ofDone (.storeA ..) (by decide)
theorem execLdAAbs_completed (a16 : Word) (s : State) : Completed s (execLdAAbs a16 s) :=
  .ofDone (.loadA ..) (by decide)
theorem execLdAbsA_completed (a16 : Word) (s : State) : Completed s (execLdAbsA a16 s) :=
  .ofDone (.storeA ..) (by decide)
theorem execLdhAImm_completed (a8 : Byte) (s : State) : Completed s (execLdhAImm a8 s) :=
  .ofDone (.loadA ..) (by decide)
theorem execLdhImmA_completed (a8 : Byte) (s : State) : Completed s (execLdhImmA a8 s) :=
  .ofDone (.storeA ..) (by decide)
theorem execLdhAC_completed (s : State) : Completed s (execLdhAC s) :=
  .ofDone (.loadA ..) (by decide)
theorem execLdhCA_completed (s : State) : Completed s (execLdhCA s) :=
  .ofDone (.storeA ..) (by decide)
theorem execLdHlIncA_completed (s : State) : Completed s (execLdHlIncA s) :=
  .ofDone ((CpuEffect.storeA ..).trans (.setHl ..)) (by decide)
theorem execLdHlDecA_completed (s : State) : Completed s (execLdHlDecA s) :=
  .ofDone ((CpuEffect.storeA ..).trans (.setHl ..)) (by decide)
theorem execLdAHlInc_completed (s : State) : Completed s (execLdAHlInc s) :=
  .ofDone ((CpuEffect.loadA ..).trans (.setHl ..)) (by decide)
theorem execLdAHlDec_completed (s : State) : Completed s (execLdAHlDec s) :=
  .ofDone ((CpuEffect.loadA ..).trans (.setHl ..)) (by decide)
theorem execLdRrNn_completed (rr : R16) (n16 : Word) (s : State) : Completed s (execLdRrNn rr n16 s) :=
  .ofDone (.setPair ..) (by decide)
theorem execLdAbsSp_completed (a16 : Word) (s : State) : Completed s (execLdAbsSp a16 s) :=
  .ofDone (.memWriteWord ..) (by decide)
theorem execLdSpHl_completed (s : State) : Completed s (execLdSpHl s) :=
  .ofDone (.ofRegs rfl rfl rfl rfl id) (by decide)
theorem execPush_completed (rr : R16Stk) (s : State) : Completed s (execPush rr s) :=
  .ofDone (.push16 ..) (by decide)
theorem execPop_completed (rr : R16Stk) (s : State) : Completed s (execPop rr s) :=
  .ofDone ((CpuEffect.popSp s).trans (.setStkPair ..)) (by decide)
theorem execAddR_completed (src : R8) (s : State) : Completed s (execAddR src s) :=
  .ofDone (.setAcc ..) (by decide)
theorem execAddM_completed (s : State) : Completed s (execAddM s) :=
  .ofDone (.setAcc ..) (by decide)
theorem execAddN_completed (n8 : Byte) (s : State) : Completed s (execAddN n8 s) :=
  .ofDone (.setAcc ..) (by decide)
theorem execAdcR_completed (src : R8) (s : State) : Completed s (execAdcR src s) :=
  .ofDone (.setAcc ..) (by decide)
theorem execAdcM_completed (s : State) : Completed s (execAdcM s) :=
  .ofDone (.setAcc ..) (by decide)
theorem execAdcN_completed (n8 : Byte) (s : State) : Completed s (execAdcN n8 s) :=
  .ofDone (.setAcc ..) (by decide)
theorem execSubR_completed (src : R8) (s : State) : Completed s (execSubR src s) :=
  .ofDone (.setAcc ..) (by decide)
theorem execSubM_completed (s : State) : Completed s (execSubM s) :=
  .ofDone (.setAcc ..) (by decide)
theorem execSubN_completed (n8 : Byte) (s : State) : Completed s (execSubN n8 s) :=
  .ofDone (.setAcc ..) (by decide)
theorem execSbcR_completed (src : R8) (s : State) : Completed s (execSbcR src s) :=
  .ofDone (.setAcc ..) (by decide)
theorem execSbcM_completed (s : State) : Completed s (execSbcM s) :=
  .ofDone (.setAcc ..) (by decide)
theorem execSbcN_completed (n8 : Byte) (s : State) : Completed s (execSbcN n8 s) :=
  .ofDone (.setAcc ..) (by decide)
theorem execAndR_completed (src : R8) (s : State) : Completed s (execAndR src s) :=
  .ofDone (.setAcc ..) (by decide)
theorem execAndM_completed (s : State) : Completed s (execAndM s) :=
  .ofDone (.setAcc ..) (by decide)
theorem execAndN_completed (n8 : Byte) (s : State) : Completed s (execAndN n8 s) :=
  .ofDone (.setAcc ..) (by decide)
theorem execXorR_completed (src : R8) (s : State) : Completed s (execXorR src s) :=
  .ofDone (.setAcc ..) (by decide)
theorem execXorM_completed (s : State) : Completed s (execXorM s) :=
  .ofDone (.setAcc ..) (by decide)
theorem execXorN_completed (n8 : Byte) (s : State) : Completed s (execXorN n8 s) :=
  .ofDone (.setAcc ..) (by decide)
theorem execOrR_completed (src : R8) (s : State) : Completed s (execOrR src s) :=
  .ofDone (.setAcc ..) (by decide)
theorem execOrM_completed (s : State) : Completed s (execOrM s) :=
  .ofDone (.setAcc ..) (by decide)
theorem execOrN_completed (n8 : Byte) (s : State) : Completed s (execOrN n8 s) :=
  .ofDone (.setAcc ..) (by decide)
theorem execCpR_completed (src : R8) (s : State) : Completed s (execCpR src s) :=
  .ofDone (.setAluFlags ..) (by decide)
theorem execCpM_completed (s : State) : Completed s (execCpM s) :=
  .ofDone (.setAluFlags ..) (by decide)
theorem execCpN_completed (n8 : Byte) (s : State) : Completed s (execCpN n8 s) :=
  .ofDone (.setAluFlags ..) (by decide)
theorem execIncR_completed (dst : R8) (s : State) : Completed s (execIncR dst s) :=
  .ofDone ((CpuEffect.setReg ..).trans (.setAluFlags ..)) (by decide)
theorem execIncM_completed (s : State) : Completed s (execIncM s) :=
  .ofDone ((CpuEffect.setAtHl ..).trans (.setAluFlags ..)) (by decide)
theorem execDecR_completed (dst : R8) (s : State) : Completed s (execDecR dst s) :=
  .ofDone ((CpuEffect.setReg ..).trans (.setAluFlags ..)) (by decide)
theorem execDecM_completed (s : State) : Completed s (execDecM s) :=
  .ofDone ((CpuEffect.setAtHl ..).trans (.setAluFlags ..)) (by decide)
theorem execDaa_completed (s : State) : Completed s (execDaa s) :=
  .ofDone (.setAcc ..) (by decide)
theorem execCpl_completed (s : State) : Completed s (execCpl s) :=
  .ofDone ((CpuEffect.setReg s .a (s.a ^^^ 0xFF)).trans (.setFlags ..)) (by decide)
theorem execScf_completed (s : State) : Completed s (execScf s) :=
  .ofDone (.setFlags ..) (by decide)
theorem execCcf_completed (s : State) : Completed s (execCcf s) :=
  .ofDone (.setFlags ..) (by decide)
theorem execAddHlRr_completed (rr : R16) (s : State) : Completed s (execAddHlRr rr s) :=
  .ofDone ((CpuEffect.setHl ..).trans (.setFlags ..)) (by decide)
theorem execIncRr_completed (rr : R16) (s : State) : Completed s (execIncRr rr s) :=
  .ofDone (.setPair ..) (by decide)
theorem execDecRr_completed (rr : R16) (s : State) : Completed s (execDecRr rr s) :=
  .ofDone (.setPair ..) (by decide)
theorem execAddSpE_completed (e8 : Byte) (s : State) : Completed s (execAddSpE e8 s) :=
  .ofDone ((CpuEffect.setPair s .sp (s.sp + sext16 e8)).trans (.setFlags ..)) (by decide)
theorem execLdHlSpE_completed (e8 : Byte) (s : State) : Completed s (execLdHlSpE e8 s) :=
  .ofDone ((CpuEffect.setHl ..).trans (.setFlags ..)) (by decide)
theorem execRlca_completed (s : State) : Completed s (execRlca s) :=
  .ofDone (.setAcc ..) (by decide)
theorem execRrca_completed (s : State) : Completed s (execRrca s) :=
  .ofDone (.setAcc ..) (by decide)
theorem execRla_completed (s : State) : Completed s (execRla s) :=
  .ofDone (.setAcc ..) (by decide)
theorem execRra_completed (s : State) : Completed s (execRra s) :=
  .ofDone (.setAcc ..) (by decide)
theorem execJp_completed (a16 : Word) (s : State) : Completed s (execJp a16 s) :=
  .ofDone (.jump ..) (by decide)
theorem execJpCc_completed (cc : Cond) (a16 : Word) (s : State) : Completed s (execJpCc cc a16 s) :=
  .ofBranch (.ofDone (.jump ..) (by decide)) (.ofDone (.refl _) (by decide))
theorem execJpHl_completed (s : State) : Completed s (execJpHl s) :=
  .ofDone (.jump ..) (by decide)
theorem execJr_completed (e8 : Byte) (s : State) : Completed s (execJr e8 s) :=
  .ofDone (.jump ..) (by decide)
theorem execJrCc_completed (cc : Cond) (e8 : Byte) (s : State) : Completed s (execJrCc cc e8 s) :=
  .ofBranch (.ofDone (.jump ..) (by decide)) (.ofDone (.refl _) (by decide))
theorem execCall_completed (a16 : Word) (s : State) : Completed s (execCall a16 s) :=
  .ofDone (.callTo ..) (by decide)
theorem execCallCc_completed (cc : Cond) (a16 : Word) (s : State) : Completed s (execCallCc cc a16 s) :=
  .ofBranch (.ofDone (.callTo ..) (by decide)) (.ofDone (.refl _) (by decide))
theorem execRet_completed (s : State) : Completed s (execRet s) :=
  .ofDone (.returnPop ..) (by decide)
theorem execRetCc_completed (cc : Cond) (s : State) : Completed s (execRetCc cc s) :=
  .ofBranch (.ofDone (.returnPop ..) (by decide)) (.ofDone (.refl _) (by decide))
theorem execReti_completed (s : State) : Completed s (execReti s) :=
  .ofDone ((CpuEffect.returnPop s).trans (.ofRegs rfl rfl rfl rfl id)) (by decide)
theorem execRst_completed (n : BitVec 3) (s : State) : Completed s (execRst n s) :=
  .ofDone (.callTo ..) (by decide)
theorem execRlcR_completed (dst : R8) (s : State) : Completed s (execRlcR dst s) :=
  .ofDone ((CpuEffect.setReg ..).trans (.setAluFlags ..)) (by decide)
theorem execRlcM_completed (s : State) : Completed s (execRlcM s) :=
  .ofDone ((CpuEffect.setAtHl ..).trans (.setAluFlags ..)) (by decide)
theorem execRrcR_completed (dst : R8) (s : State) : Completed s (execRrcR dst s) :=
  .ofDone ((CpuEffect.setReg ..).trans (.setAluFlags ..)) (by decide)
theorem execRrcM_completed (s : State) : Completed s (execRrcM s) :=
  .ofDone ((CpuEffect.setAtHl ..).trans (.setAluFlags ..)) (by decide)
theorem execRlR_completed (dst : R8) (s : State) : Completed s (execRlR dst s) :=
  .ofDone ((CpuEffect.setReg ..).trans (.setAluFlags ..)) (by decide)
theorem execRlM_completed (s : State) : Completed s (execRlM s) :=
  .ofDone ((CpuEffect.setAtHl ..).trans (.setAluFlags ..)) (by decide)
theorem execRrR_completed (dst : R8) (s : State) : Completed s (execRrR dst s) :=
  .ofDone ((CpuEffect.setReg ..).trans (.setAluFlags ..)) (by decide)
theorem execRrM_completed (s : State) : Completed s (execRrM s) :=
  .ofDone ((CpuEffect.setAtHl ..).trans (.setAluFlags ..)) (by decide)
theorem execSlaR_completed (dst : R8) (s : State) : Completed s (execSlaR dst s) :=
  .ofDone ((CpuEffect.setReg ..).trans (.setAluFlags ..)) (by decide)
theorem execSlaM_completed (s : State) : Completed s (execSlaM s) :=
  .ofDone ((CpuEffect.setAtHl ..).trans (.setAluFlags ..)) (by decide)
theorem execSraR_completed (dst : R8) (s : State) : Completed s (execSraR dst s) :=
  .ofDone ((CpuEffect.setReg ..).trans (.setAluFlags ..)) (by decide)
theorem execSraM_completed (s : State) : Completed s (execSraM s) :=
  .ofDone ((CpuEffect.setAtHl ..).trans (.setAluFlags ..)) (by decide)
theorem execSwapR_completed (dst : R8) (s : State) : Completed s (execSwapR dst s) :=
  .ofDone ((CpuEffect.setReg ..).trans (.setAluFlags ..)) (by decide)
theorem execSwapM_completed (s : State) : Completed s (execSwapM s) :=
  .ofDone ((CpuEffect.setAtHl ..).trans (.setAluFlags ..)) (by decide)
theorem execSrlR_completed (dst : R8) (s : State) : Completed s (execSrlR dst s) :=
  .ofDone ((CpuEffect.setReg ..).trans (.setAluFlags ..)) (by decide)
theorem execSrlM_completed (s : State) : Completed s (execSrlM s) :=
  .ofDone ((CpuEffect.setAtHl ..).trans (.setAluFlags ..)) (by decide)
theorem execBitR_completed (bit : BitVec 3) (reg : R8) (s : State) : Completed s (execBitR bit reg s) :=
  .ofDone (.testBit ..) (by decide)
theorem execBitM_completed (bit : BitVec 3) (s : State) : Completed s (execBitM bit s) :=
  .ofDone (.testBit ..) (by decide)
theorem execResR_completed (bit : BitVec 3) (reg : R8) (s : State) : Completed s (execResR bit reg s) :=
  .ofDone (.setReg ..) (by decide)
theorem execResM_completed (bit : BitVec 3) (s : State) : Completed s (execResM bit s) :=
  .ofDone (.setAtHl ..) (by decide)
theorem execSetR_completed (bit : BitVec 3) (reg : R8) (s : State) : Completed s (execSetR bit reg s) :=
  .ofDone (.setReg ..) (by decide)
theorem execSetM_completed (bit : BitVec 3) (s : State) : Completed s (execSetM bit s) :=
  .ofDone (.setAtHl ..) (by decide)

/-- The prefix completes as the second-page instruction it selects (46_misc_control.md R345). -/
theorem execPrefixCB_eq (second : Byte) (s : State) :
    execPrefixCB second s = exec (decodeCb second).toInstr s := by
  unfold execPrefixCB
  rcases decodeCb second with ⟨op, r⟩ | op | ⟨n, r⟩ | n | ⟨n, r⟩ | n | ⟨n, r⟩ | n <;> first | rfl | (cases op <;> rfl)

theorem exec_toInstr_completed (op : CbOp) (s : State) : Completed s (exec op.toInstr s) := by
  rcases op with ⟨op, r⟩ | op | ⟨n, r⟩ | n | ⟨n, r⟩ | n | ⟨n, r⟩ | n
  · cases op
    · exact execRlcR_completed r s
    · exact execRrcR_completed r s
    · exact execRlR_completed r s
    · exact execRrR_completed r s
    · exact execSlaR_completed r s
    · exact execSraR_completed r s
    · exact execSwapR_completed r s
    · exact execSrlR_completed r s
  · cases op
    · exact execRlcM_completed s
    · exact execRrcM_completed s
    · exact execRlM_completed s
    · exact execRrM_completed s
    · exact execSlaM_completed s
    · exact execSraM_completed s
    · exact execSwapM_completed s
    · exact execSrlM_completed s
  · exact execBitR_completed n r s
  · exact execBitM_completed n s
  · exact execResR_completed n r s
  · exact execResM_completed n s
  · exact execSetR_completed n r s
  · exact execSetM_completed n s

theorem execPrefixCB_completed (second : Byte) (s : State) : Completed s (execPrefixCB second s) := by
  rw [execPrefixCB_eq]
  exact exec_toInstr_completed _ s

/-- Every instruction but the eleven undefined bytes completes. -/
theorem exec_completed {i : Instr} (h : i.undefinedOpcode = none) (s : State) : Completed s (exec i s) := by
  cases i
  case nop => exact execNop_completed s
  case stop pad => exact execStop_completed pad s
  case halt => exact execHalt_completed s
  case di => exact execDi_completed s
  case ei => exact execEi_completed s
  case ldRR dst src => exact execLdRR_completed dst src s
  case ldRN dst n8 => exact execLdRN_completed dst n8 s
  case ldRM dst => exact execLdRM_completed dst s
  case ldMR src => exact execLdMR_completed src s
  case ldMN n8 => exact execLdMN_completed n8 s
  case ldABc => exact execLdABc_completed s
  case ldADe => exact execLdADe_completed s
  case ldBcA => exact execLdBcA_completed s
  case ldDeA => exact execLdDeA_completed s
  case ldAAbs a16 => exact execLdAAbs_completed a16 s
  case ldAbsA a16 => exact execLdAbsA_completed a16 s
  case ldhAImm a8 => exact execLdhAImm_completed a8 s
  case ldhImmA a8 => exact execLdhImmA_completed a8 s
  case ldhAC => exact execLdhAC_completed s
  case ldhCA => exact execLdhCA_completed s
  case ldHlIncA => exact execLdHlIncA_completed s
  case ldHlDecA => exact execLdHlDecA_completed s
  case ldAHlInc => exact execLdAHlInc_completed s
  case ldAHlDec => exact execLdAHlDec_completed s
  case ldRrNn rr n16 => exact execLdRrNn_completed rr n16 s
  case ldAbsSp a16 => exact execLdAbsSp_completed a16 s
  case ldSpHl => exact execLdSpHl_completed s
  case push rr => exact execPush_completed rr s
  case pop rr => exact execPop_completed rr s
  case addR src => exact execAddR_completed src s
  case addM => exact execAddM_completed s
  case addN n8 => exact execAddN_completed n8 s
  case adcR src => exact execAdcR_completed src s
  case adcM => exact execAdcM_completed s
  case adcN n8 => exact execAdcN_completed n8 s
  case subR src => exact execSubR_completed src s
  case subM => exact execSubM_completed s
  case subN n8 => exact execSubN_completed n8 s
  case sbcR src => exact execSbcR_completed src s
  case sbcM => exact execSbcM_completed s
  case sbcN n8 => exact execSbcN_completed n8 s
  case andR src => exact execAndR_completed src s
  case andM => exact execAndM_completed s
  case andN n8 => exact execAndN_completed n8 s
  case xorR src => exact execXorR_completed src s
  case xorM => exact execXorM_completed s
  case xorN n8 => exact execXorN_completed n8 s
  case orR src => exact execOrR_completed src s
  case orM => exact execOrM_completed s
  case orN n8 => exact execOrN_completed n8 s
  case cpR src => exact execCpR_completed src s
  case cpM => exact execCpM_completed s
  case cpN n8 => exact execCpN_completed n8 s
  case incR dst => exact execIncR_completed dst s
  case incM => exact execIncM_completed s
  case decR dst => exact execDecR_completed dst s
  case decM => exact execDecM_completed s
  case daa => exact execDaa_completed s
  case cpl => exact execCpl_completed s
  case scf => exact execScf_completed s
  case ccf => exact execCcf_completed s
  case addHlRr rr => exact execAddHlRr_completed rr s
  case incRr rr => exact execIncRr_completed rr s
  case decRr rr => exact execDecRr_completed rr s
  case addSpE e8 => exact execAddSpE_completed e8 s
  case ldHlSpE e8 => exact execLdHlSpE_completed e8 s
  case rlca => exact execRlca_completed s
  case rrca => exact execRrca_completed s
  case rla => exact execRla_completed s
  case rra => exact execRra_completed s
  case jp a16 => exact execJp_completed a16 s
  case jpCc cc a16 => exact execJpCc_completed cc a16 s
  case jpHl => exact execJpHl_completed s
  case jr e8 => exact execJr_completed e8 s
  case jrCc cc e8 => exact execJrCc_completed cc e8 s
  case call a16 => exact execCall_completed a16 s
  case callCc cc a16 => exact execCallCc_completed cc a16 s
  case ret => exact execRet_completed s
  case retCc cc => exact execRetCc_completed cc s
  case reti => exact execReti_completed s
  case rst n => exact execRst_completed n s
  case illegalD3 => exact absurd h (by decide)
  case illegalDB => exact absurd h (by decide)
  case illegalDD => exact absurd h (by decide)
  case illegalE3 => exact absurd h (by decide)
  case illegalE4 => exact absurd h (by decide)
  case illegalEB => exact absurd h (by decide)
  case illegalEC => exact absurd h (by decide)
  case illegalED => exact absurd h (by decide)
  case illegalF4 => exact absurd h (by decide)
  case illegalFC => exact absurd h (by decide)
  case illegalFD => exact absurd h (by decide)
  case prefixCB second => exact execPrefixCB_completed second s
  case rlcR dst => exact execRlcR_completed dst s
  case rlcM => exact execRlcM_completed s
  case rrcR dst => exact execRrcR_completed dst s
  case rrcM => exact execRrcM_completed s
  case rlR dst => exact execRlR_completed dst s
  case rlM => exact execRlM_completed s
  case rrR dst => exact execRrR_completed dst s
  case rrM => exact execRrM_completed s
  case slaR dst => exact execSlaR_completed dst s
  case slaM => exact execSlaM_completed s
  case sraR dst => exact execSraR_completed dst s
  case sraM => exact execSraM_completed s
  case swapR dst => exact execSwapR_completed dst s
  case swapM => exact execSwapM_completed s
  case srlR dst => exact execSrlR_completed dst s
  case srlM => exact execSrlM_completed s
  case bitR bit reg => exact execBitR_completed bit reg s
  case bitM bit => exact execBitM_completed bit s
  case resR bit reg => exact execResR_completed bit reg s
  case resM bit => exact execResM_completed bit s
  case setR bit reg => exact execSetR_completed bit reg s
  case setM bit => exact execSetM_completed bit s

/-- An undefined byte records its fault and changes nothing else (60_exceptions.md R362). -/
theorem exec_undefined {i : Instr} {op : Byte} (h : i.undefinedOpcode = some op) (s : State) :
    exec i s = .next { s with fault := some (.unknownOpcode op (s.pc - 1)) } := by
  cases i <;> first | (cases h; rfl) | cases h

end Sys2Proof.Machine
end

