-- ==== Sys2Proof/Laws/Frames.lean ====
section
/-! SUPPORT. What each kind of update leaves alone and establishes, in the terms of Safety.lean. -/

namespace Sys2Proof.Machine

/-! ### Completing -/

/-- An instruction whose meaning is `done cost t` completes with that state. -/
theorem Completes.ofDone {i : Instr} {bytes : List Byte} {cost : Nat} {s t : State} {post : State → Prop}
    (hr : Reads bytes i) (he : exec i s = done cost t) (hc : t.cycles = s.cycles) (hp : post (t.spend cost)) :
    Completes i bytes cost s post := ⟨hr, _, he, by simp [hc], hp⟩

/-! ### Flags -/

theorem FlagsAre.setFlags (s : State) (z n h c : Bool) {cost : Nat} {pz pn ph pc : Prop} (hz : z = true ↔ pz)
    (hn : n = true ↔ pn) (hh : h = true ↔ ph) (hc : c = true ↔ pc) :
    FlagsAre ((s.setFlags z n h c).spend cost) pz pn ph pc := by
  refine ⟨?_, ?_, ?_, ?_, masked_low _⟩ <;> simpa

/-- The flags an ALU result writes. -/
theorem FlagsAre.setAlu (s : State) (r : AluOut) {cost : Nat} {pz pn ph pc : Prop} (hz : r.z = true ↔ pz)
    (hn : r.n = true ↔ pn) (hh : r.h = true ↔ ph) (hc : r.c = true ↔ pc) :
    FlagsAre ((s.setAluFlags r).spend cost) pz pn ph pc := .setFlags _ _ _ _ _ hz hn hh hc

/-! ### Bytes -/

theorem SameBytesExcept.ofMem {s t : State} (h : t.mem = s.mem) (written : List Word) : SameBytesExcept written s t :=
  fun x _ => by simp only [State.memRead, h]

theorem SameBytesExcept.trans {s t u : State} {l : List Word} (h : SameBytesExcept l s t) (h' : SameBytesExcept l t u) :
    SameBytesExcept l s u := fun x hx => (h' x hx).trans (h x hx)

/-- More addresses may be named than are written. -/
theorem SameBytesExcept.mono {s t : State} {l l' : List Word} (h : SameBytesExcept l s t) (hl : ∀ x ∈ l, x ∈ l') :
    SameBytesExcept l' s t := fun x hx => h x fun hm => hx (hl x hm)

theorem SameBytesExcept.memWrite (s : State) (a : Word) (v : Byte) : SameBytesExcept [a] s (s.memWrite a v) :=
  fun _ hx => memRead_memWrite_other s v (by simpa using hx)

/-- A bus write stores its byte, in a canonical memory. -/
theorem memRead_memWrite_eq {s : State} (hw : s.mem.wf = true) (a : Word) (v : Byte) :
    (s.memWrite a v).memRead a = if writeProtected a then s.memRead a else v := by
  rcases h : writeProtected a with _ | _
  · simpa using memRead_memWrite_same hw v h
  · rw [memWrite_protected v h]; rfl

theorem Stored.memWrite {s : State} (hw : s.mem.wf = true) (a : Word) (v : Byte) : Stored a v s (s.memWrite a v) :=
  memRead_memWrite_eq hw a v

/-- A stored byte is stored whatever is then done outside memory. -/
theorem Stored.ofMem {x : Word} {v : Byte} {s t u : State} (h : Stored x v s t) (hm : u.mem = t.mem) : Stored x v s u := by
  simpa only [Stored, State.memRead, hm] using h

/-! ### Frames -/

theorem Frame.setAcc (s : State) (r : AluOut) (cost : Nat) : Frame [.a] [] s ((s.setAcc r).spend cost) :=
  ⟨fun q hq => by cases q <;> first | rfl | simp at hq, .ofMem rfl _, rfl⟩

theorem Frame.setAluFlags (s : State) (r : AluOut) (cost : Nat) : Frame [] [] s ((s.setAluFlags r).spend cost) :=
  ⟨fun q _ => by cases q <;> rfl, .ofMem rfl _, rfl⟩

theorem Frame.setFlags (s : State) (z n h c : Bool) (cost : Nat) : Frame [] [] s ((s.setFlags z n h c).spend cost) :=
  ⟨fun q _ => by cases q <;> rfl, .ofMem rfl _, rfl⟩

theorem Frame.setReg (s : State) (r : R8) (v : Byte) (cost : Nat) : Frame [r] [] s ((s.setReg r v).spend cost) := by
  refine ⟨fun q hq => State.reg_setReg_other s v (by simpa using hq), .ofMem (by cases r <;> rfl) _, ?_⟩
  cases r <;> rfl

theorem Frame.setRegFlags (s : State) (r : R8) (v : Byte) (out : AluOut) (cost : Nat) :
    Frame [r] [] s (((s.setReg r v).setAluFlags out).spend cost) := by
  refine ⟨fun q hq => ?_, .ofMem (by cases r <;> rfl) _, ?_⟩
  · have : (((s.setReg r v).setAluFlags out).spend cost).reg q = (s.setReg r v).reg q := by cases q <;> rfl
    rw [this, State.reg_setReg_other s v (by simpa using hq)]
  · cases r <;> rfl

/-- A state that differs in memory only, and there only at the named addresses. -/
theorem Frame.ofMem {s t : State} {stored : List Word} (hb : SameBytesExcept stored s t)
    (ht : t = { s with f := t.f, cycles := t.cycles, mem := t.mem }) : Frame [] stored s t :=
  ⟨fun q _ => by rw [ht]; cases q <;> rfl, hb, by rw [ht]⟩

/-- A bus write changes memory only. -/
theorem memWrite_eq (s : State) (a : Word) (v : Byte) : s.memWrite a v = { s with mem := (s.memWrite a v).mem } := by
  unfold State.memWrite
  split <;> rfl

theorem Frame.memWrite (s : State) (a : Word) (v : Byte) (cost : Nat) : Frame [] [a] s ((s.memWrite a v).spend cost) :=
  .ofMem (.memWrite s a v) (by rw [memWrite_eq]; rfl)

theorem Frame.memWriteFlags (s : State) (a : Word) (v : Byte) (out : AluOut) (cost : Nat) :
    Frame [] [a] s (((s.memWrite a v).setAluFlags out).spend cost) :=
  .ofMem (.memWrite s a v) (by rw [memWrite_eq]; rfl)

/-! ### The stack -/

/-- A push changes memory and SP only. -/
theorem push16_eq (s : State) (v : Word) : s.push16 v = { s with sp := s.sp - 2, mem := (s.push16 v).mem } := by
  unfold State.push16
  dsimp only
  rw [memWrite_eq, memWrite_eq s]

/-- `Push16` (44_stack.md R320), whatever the instruction then does to the rest of the state. -/
theorem Pushed.ofPush16 {s t : State} (hw : s.mem.wf = true) {v : Word} (hm : t.mem = (s.push16 v).mem)
    (hsp : t.sp = s.sp - 2) : Pushed (hiByte v) (loByte v) s t := by
  have hne : s.sp - 1 ≠ s.sp - 2 := by bv_omega
  have hr (x : Word) : t.memRead x =
      ((s.memWrite (s.sp - 1) (hiByte v)).memWrite (s.sp - 2) (loByte v)).memRead x := by
    simp only [State.memRead, hm]; rfl
  refine ⟨hsp, ?_, ?_, fun x hx => ?_⟩
  · rw [Stored, hr, memRead_memWrite_other _ _ hne, memRead_memWrite_eq hw]
  · rw [Stored, hr, memRead_memWrite_eq (memWrite_wf hw _ _), memRead_memWrite_other _ _ (Ne.symm hne)]
  · simp only [List.mem_cons, List.not_mem_nil, or_false, not_or] at hx
    rw [hr, memRead_memWrite_other _ _ hx.2, memRead_memWrite_other _ _ hx.1]

end Sys2Proof.Machine
end

