-- ==== Sys2Proof/Laws/Alu.lean ====
section
/-! SUPPORT. The result and flag computations of Machine/Flags.lean as integers, and what the shared operations that write
them do, in the terms of Safety.lean. -/

namespace Sys2Proof.Machine

/-! ### Addition and subtraction -/

theorem add8_half (a b : Byte) (c : Bool) :
    (add8 a b c).h = true ↔ a.toNat % 16 + b.toNat % 16 + c.toNat > 15 := by
  simp only [add8, nibble_toNat, decide_eq_true_eq]

theorem add8_carry (a b : Byte) (c : Bool) : (add8 a b c).c = true ↔ a.toNat + b.toNat + c.toNat > 255 := by
  simp only [add8, decide_eq_true_eq]

theorem sub8_half (a b : Byte) (c : Bool) :
    (sub8 a b c).h = true ↔ (a.toNat % 16 : Int) - b.toNat % 16 - c.toNat < 0 := by
  simp only [sub8, nibble_toNat, decide_eq_true_eq, Int.natCast_emod, Nat.cast_ofNat]

theorem sub8_carry (a b : Byte) (c : Bool) : (sub8 a b c).c = true ↔ (a.toNat : Int) - b.toNat - c.toNat < 0 := by
  simp only [sub8, decide_eq_true_eq]

theorem sub8_zero (a b : Byte) (c : Bool) :
    (sub8 a b c).z = true ↔ ((a.toNat : Int) - b.toNat - c.toNat) % 256 = 0 := by
  have hz : (sub8 a b c).z = ((sub8 a b c).value == 0) := rfl
  rw [← sub8_toNat, hz, beq_iff_eq, ← BitVec.toNat_inj]
  simp

/-- Writing `Add8` to A (40_arithmetic.md R164, R167). -/
theorem AddedToA.setAcc (s : State) (v : Byte) (c : Bool) {k : Nat} (hk : c.toNat = k) (cost : Nat) :
    AddedToA v.toNat k s ((s.setAcc (add8 s.a v c)).spend cost) := by
  subst hk
  exact ⟨add8_toNat .., .setAlu _ _ beq_iff_eq (by simp [add8]) (add8_half ..) (add8_carry ..), .setAcc ..⟩

/-- Writing the flags of `Sub8` (R170, R173, R185). -/
theorem SubFlags.setAluFlags (s u : State) (v : Byte) (c : Bool) {k : Nat} (hk : c.toNat = k) (cost : Nat) :
    SubFlags v.toNat k s ((u.setAluFlags (sub8 s.a v c)).spend cost) := by
  subst hk
  exact .setAlu _ _ (sub8_zero ..) (by simp [sub8]) (sub8_half ..) (sub8_carry ..)

/-- Writing `Sub8` to A (R170, R173). -/
theorem SubtractedFromA.setAcc (s : State) (v : Byte) (c : Bool) {k : Nat} (hk : c.toNat = k) (cost : Nat) :
    SubtractedFromA v.toNat k s ((s.setAcc (sub8 s.a v c)).spend cost) :=
  ⟨by rw [← hk]; exact sub8_toNat .., .setAluFlags _ _ _ _ hk _, .setAcc ..⟩

/-! ### Increment and decrement -/

theorem inc8_half (v : Byte) (c : Bool) : (inc8 v c).h = true ↔ v.toNat % 16 = 15 := by
  have h : ∀ v : Byte, ((v &&& 0x0F) == 0x0F) = true ↔ v.toNat % 16 = 15 := by decide
  exact h v

theorem dec8_half (v : Byte) (c : Bool) : (dec8 v c).h = true ↔ v.toNat % 16 = 0 := by
  have h : ∀ v : Byte, ((v &&& 0x0F) == 0x00) = true ↔ v.toNat % 16 = 0 := by decide
  exact h v

theorem inc8_zero (v : Byte) (c : Bool) : (inc8 v c).z = true ↔ v.toNat = 255 := by
  have h : ∀ v : Byte, (v + 1 == 0) = true ↔ v.toNat = 255 := by decide
  exact h v

theorem dec8_zero (v : Byte) (c : Bool) : (dec8 v c).z = true ↔ v.toNat = 1 := by
  have h : ∀ v : Byte, (v - 1 == 0) = true ↔ v.toNat = 1 := by decide
  exact h v

theorem dec8_toInt (v : Byte) (c : Bool) : ((dec8 v c).value.toNat : Int) = ((v.toNat : Int) - 1) % 256 := by
  have h : ∀ v : Byte, ((v - 1).toNat : Int) = ((v.toNat : Int) - 1) % 256 := by decide
  exact h v

@[simp] theorem reg_setRegFlags (s : State) (r : R8) (v : Byte) (out : AluOut) (cost : Nat) :
    (((s.setReg r v).setAluFlags out).spend cost).reg r = v := by
  cases r <;> rfl

/-! ### Decimal adjust -/

theorem daa8_add (a : Byte) (h c : Bool) :
    (daa8 a false h c).value.toNat =
      (a.toNat + (if h ∨ a.toNat % 16 > 9 then 0x06 else 0) + (if c ∨ a.toNat > 0x99 then 0x60 else 0)) % 256 ∧
    ((daa8 a false h c).c = true ↔ c ∨ a.toNat > 0x99) := by
  revert a h c; decide

theorem daa8_sub (a : Byte) (h c : Bool) :
    ((daa8 a true h c).value.toNat : Int) =
      ((a.toNat : Int) - (if h then 0x06 else 0) - (if c then 0x60 else 0)) % 256 ∧
    ((daa8 a true h c).c = true ↔ c) := by
  revert a h c; decide

theorem daa8_flags (a : Byte) (n h c : Bool) :
    (daa8 a n h c).z = ((daa8 a n h c).value == 0) ∧ (daa8 a n h c).n = n ∧ (daa8 a n h c).h = false := by
  cases n <;> exact ⟨rfl, rfl, rfl⟩

/-! ### Rotates and shifts -/

theorem shift8_result (op : ShiftOp) (v : Byte) (c : Bool) : (shift8 op v c).1.toNat = op.result v.toNat c.toNat := by
  cases op <;> revert v c <;> decide

theorem shift8_carry (op : ShiftOp) (v : Byte) (c : Bool) : (shift8 op v c).2 = true ↔ op.carryOut v.toNat := by
  have h : ∀ v : Byte, (v.getLsbD 7 = true ↔ v.toNat ≥ 128) ∧ (v.getLsbD 0 = true ↔ v.toNat % 2 = 1) := by decide
  cases op
  case swap => exact ⟨Bool.noConfusion, False.elim⟩
  all_goals first | exact (h v).1 | exact (h v).2

theorem shiftOut_zero (op : ShiftOp) (v : Byte) (c : Bool) :
    (shiftOut op v c).z = true ↔ op.result v.toNat c.toNat = 0 := by
  have hz : (shiftOut op v c).z = ((shift8 op v c).1 == 0) := rfl
  rw [← shift8_result, hz, beq_iff_eq, ← BitVec.toNat_inj]
  rfl

/-- Writing the flags of a rotate or shift (41_bit_manipulation.md section 3). -/
theorem ShiftFlags.setAluFlags (u : State) (op : ShiftOp) (v : Byte) (c : Bool) (cost : Nat) :
    ShiftFlags op v.toNat c.toNat ((u.setAluFlags (shiftOut op v c)).spend cost) :=
  .setAlu _ _ (shiftOut_zero ..) (by simp [shiftOut]) (by simp [shiftOut]) (shift8_carry ..)

/-- The common register form. -/
theorem ShiftedReg.ofShiftReg (op : ShiftOp) (r : R8) (s : State) (cost : Nat) :
    ShiftedReg op r s
      (((s.setReg r (shiftOut op (s.reg r) s.fC).value).setAluFlags (shiftOut op (s.reg r) s.fC)).spend cost) :=
  ⟨by rw [reg_setRegFlags]; exact shift8_result .., .setAluFlags .., .setRegFlags ..⟩

/-- The common `(HL)` form. -/
theorem ShiftedMem.ofShiftMem (op : ShiftOp) {s : State} (hw : s.mem.wf = true) (cost : Nat) :
    ShiftedMem op s (((s.setAtHl (shiftOut op s.atHl s.fC).value).setAluFlags (shiftOut op s.atHl s.fC)).spend cost) := by
  refine ⟨?_, .setAluFlags .., .memWriteFlags ..⟩
  rw [← shift8_result, BitVec.ofNat_toNat, BitVec.setWidth_eq]
  exact .ofMem (.memWrite hw _ _) rfl

/-! ### Bits -/

theorem bit_toNat (v : Byte) (b : BitVec 3) : (!v.getLsbD b.toNat) = true ↔ v.toNat / 2 ^ b.toNat % 2 = 0 := by
  revert v b; decide

theorem mask_getLsbD (b : BitVec 3) (k : Nat) (hk : k < 8) :
    ((1 : Byte) <<< b.toNat).getLsbD k = decide (k = b.toNat) := by
  have h : ∀ b : BitVec 3, ∀ k < 8, ((1 : Byte) <<< b.toNat).getLsbD k = decide (k = b.toNat) := by decide
  exact h b k hk

theorem clearBit_getLsbD (v : Byte) (b : BitVec 3) (k : Nat) (hk : k < 8) :
    (clearBit v b).getLsbD k = if k = b.toNat then false else v.getLsbD k := by
  rw [clearBit, BitVec.getLsbD_and, BitVec.getLsbD_not, mask_getLsbD b k hk]
  by_cases h : k = b.toNat <;> simp [h, hk]

theorem setBit_getLsbD (v : Byte) (b : BitVec 3) (k : Nat) (hk : k < 8) :
    (setBit v b).getLsbD k = if k = b.toNat then true else v.getLsbD k := by
  rw [setBit, BitVec.getLsbD_or, mask_getLsbD b k hk]
  by_cases h : k = b.toNat <;> simp [h]

/-! ### Sixteen bits -/

theorem add16Half_iff (x y : Word) : add16Half x y = true ↔ x.toNat % 4096 + y.toNat % 4096 > 4095 := by
  have h (w : Word) : (w &&& 0x0FFF).toNat = w.toNat % 4096 := by
    simpa using Nat.and_two_pow_sub_one_eq_mod w.toNat 12
  simp only [add16Half, h, decide_eq_true_eq]

theorem add16Carry_iff (x y : Word) : add16Carry x y = true ↔ x.toNat + y.toNat > 65535 := by
  simp only [add16Carry, decide_eq_true_eq]

theorem addSpHalf_iff (sp : Word) (e8 : Byte) : addSpHalf sp e8 = true ↔ sp.toNat % 16 + e8.toNat % 16 > 15 := by
  have h : (sp &&& 0x000F).toNat = sp.toNat % 16 := by simpa using Nat.and_two_pow_sub_one_eq_mod sp.toNat 4
  simp only [addSpHalf, h, nibble_toNat, decide_eq_true_eq]

theorem addSpCarry_iff (sp : Word) (e8 : Byte) : addSpCarry sp e8 = true ↔ sp.toNat % 256 + e8.toNat > 255 := by
  have h : (sp &&& 0x00FF).toNat = sp.toNat % 256 := by simpa using Nat.and_two_pow_sub_one_eq_mod sp.toNat 8
  simp only [addSpCarry, h, decide_eq_true_eq]

/-- A base plus a signed operand byte, modulo 65536 (30_encoding.md R129). -/
theorem add_sext16_toInt (w : Word) (e8 : Byte) : (((w + sext16 e8).toNat : Int)) = (w.toNat + e8.toInt) % 65536 := by
  have h : ∀ e : Byte, ((e.signExtend 16).toNat : Int) = e.toInt % 65536 := by decide
  rw [BitVec.toNat_add, sext16]
  push_cast
  rw [h]
  omega

/-- A high-page address (43_loads.md R280). -/
theorem highPage_eq (v : Byte) : highPage v = BitVec.ofNat 16 (0xFF00 + v.toNat) := by
  revert v; decide

end Sys2Proof.Machine
end

