-- ==== Sys2Proof/Laws/Ticks.lean ====
section
/-! SUPPORT. Said once: everything a tick can do. Neither the timer nor the PPU touches the CPU half or a protected byte, both
keep memory canonical, and each leaves the other's state alone (10_state.md R70; 90_conflicts.md C4). -/

namespace Sys2Proof.Machine

/-- What a device may do to the rest of the machine. -/
structure TickEffect (s t : State) : Prop where
  cpu : t.cpu = s.cpu
  wf : s.mem.wf = true → t.mem.wf = true
  rom : ∀ x, writeProtected x = true → t.memRead x = s.memRead x

theorem TickEffect.refl (s : State) : TickEffect s s := ⟨rfl, id, fun _ _ => rfl⟩

theorem TickEffect.trans {s t u : State} (h : TickEffect s t) (h' : TickEffect t u) : TickEffect s u :=
  ⟨h'.cpu.trans h.cpu, fun w => h'.wf (h.wf w), fun x hx => (h'.rom x hx).trans (h.rom x hx)⟩

theorem TickEffect.ofDevices {s t : State} (hc : t.cpu = s.cpu) (hm : t.mem = s.mem) : TickEffect s t :=
  ⟨hc, fun w => hm ▸ w, fun x _ => by simp only [State.memRead, hm]⟩

theorem TickEffect.memWrite (s : State) (a : Word) (v : Byte) : TickEffect s (s.memWrite a v) :=
  ⟨by simp [State.cpu], fun w => memWrite_wf w a v, fun _ hx => memRead_memWrite_ofProtected s a v hx⟩

theorem TickEffect.requestInterrupt (k : Irq) (s : State) : TickEffect s (requestInterrupt k s) := .memWrite ..

theorem TickEffect.emit (s : State) (evs : List DisplayEvent) : TickEffect s (s.emit evs) := .ofDevices rfl rfl

/-! ### The timer -/

theorem timerReload_effect (s : State) : TickEffect s (timerReload s) := by
  unfold timerReload
  split
  · exact ((TickEffect.memWrite s _ _).trans (.requestInterrupt ..)).trans (.ofDevices rfl rfl)
  · exact .refl s

theorem timerAdvance_effect (s : State) : TickEffect s (timerAdvance s) :=
  TickEffect.trans (t := { s with tcount := s.tcount + 1 }) (.ofDevices rfl rfl) (.memWrite ..)

theorem timerIncrement_effect (s : State) : TickEffect s (timerIncrement s) := by
  unfold timerIncrement
  dsimp only
  split
  · exact (TickEffect.memWrite s _ _).trans (.ofDevices rfl rfl)
  · exact .memWrite ..

theorem timerEdge_effect (s : State) : TickEffect s (timerEdge s) := by
  unfold timerEdge
  dsimp only
  split
  · exact (timerIncrement_effect s).trans (.ofDevices rfl rfl)
  · exact .ofDevices rfl rfl

theorem timerTick_effect (s : State) : TickEffect s (timerTick s) :=
  ((timerReload_effect s).trans (timerAdvance_effect _)).trans (timerEdge_effect _)

/-! ### The PPU -/

theorem enterMode_effect (m : PpuMode) (s : State) : TickEffect s (enterMode m s) := by
  have h : TickEffect s { s with pmode := m } := .ofDevices rfl rfl
  unfold enterMode
  dsimp only
  split
  · exact h.trans ((TickEffect.memWrite _ _ _).trans (.requestInterrupt ..))
  · exact h.trans (.memWrite ..)

theorem lyAndCoincidence_effect (s : State) : TickEffect s (lyAndCoincidence s) := by
  have h : TickEffect s (s.memWrite addrLY (BitVec.ofNat 8 s.ly)) := .memWrite ..
  unfold lyAndCoincidence
  dsimp only
  split
  · split
    · exact h
    · split
      · exact h.trans ((TickEffect.memWrite _ _ _).trans (.requestInterrupt ..))
      · exact h.trans (.memWrite ..)
  · exact h.trans (.memWrite ..)

theorem renderScanline_effect (y : Nat) (s : State) : TickEffect s (renderScanline y s) := .emit ..

theorem ppuAdvance_effect (s : State) : TickEffect s (ppuAdvance s) := by
  have h (n k : Nat) : TickEffect s { s with pcnt := n, ly := k } := .ofDevices rfl rfl
  unfold ppuAdvance
  split
  · split
    · exact (h 0 s.ly).trans (enterMode_effect ..)
    · exact .refl s
  · split
    · exact (h 0 s.ly).trans ((renderScanline_effect ..).trans (enterMode_effect ..))
    · exact .refl s
  · split
    · dsimp only
      split
      · exact (h 0 _).trans ((enterMode_effect ..).trans ((TickEffect.requestInterrupt ..).trans (.emit ..)))
      · exact (h 0 _).trans (enterMode_effect ..)
    · exact .refl s
  · split
    · exact (h 0 0).trans (enterMode_effect ..)
    · split
      · exact h s.pcnt _
      · exact .refl s

theorem ppuStep_effect (s : State) : TickEffect s (ppuStep s) := by
  have h : TickEffect s { s with pcnt := s.pcnt + 1 } := .ofDevices rfl rfl
  exact (h.trans (ppuAdvance_effect _)).trans (lyAndCoincidence_effect _)

/-! ### Ticks -/

theorem tick_effect (s : State) : TickEffect s (tick s) := (timerTick_effect s).trans (ppuStep_effect _)

theorem forwardTicks_effect (n : Nat) (s : State) : TickEffect s (forwardTicks n s) := by
  induction n generalizing s with
  | zero => exact .refl s
  | succ n ih => exact (tick_effect s).trans (ih (tick s))

/-- An induction packaged once: what every tick keeps, the forwarded ticks keep. -/
theorem forwardTicks_induction {P : State → Prop} (h : ∀ s, P s → P (tick s)) (n : Nat) {s : State} (hs : P s) :
    P (forwardTicks n s) := by
  induction n generalizing s with
  | zero => exact hs
  | succ n ih => exact ih (h s hs)

/-- `n + 1` ticks are `n` ticks and one more. -/
theorem forwardTicks_succ (n : Nat) (s : State) : forwardTicks (n + 1) s = tick (forwardTicks n s) := by
  induction n generalizing s with
  | zero => rfl
  | succ n ih => exact ih (tick s)

/-- Ticks add up. -/
theorem forwardTicks_add (m n : Nat) (s : State) : forwardTicks (m + n) s = forwardTicks n (forwardTicks m s) := by
  induction n with
  | zero => rfl
  | succ n ih => rw [← Nat.add_assoc, forwardTicks_succ, ih, forwardTicks_succ]

/-! ### Each device leaves the other alone -/

@[simp] theorem enterMode_ly (m : PpuMode) (s : State) : (enterMode m s).ly = s.ly := by
  unfold enterMode; dsimp only; split <;> simp
@[simp] theorem enterMode_pcnt (m : PpuMode) (s : State) : (enterMode m s).pcnt = s.pcnt := by
  unfold enterMode; dsimp only; split <;> simp
@[simp] theorem enterMode_pmode (m : PpuMode) (s : State) : (enterMode m s).pmode = m := by
  unfold enterMode; dsimp only; split <;> simp
@[simp] theorem enterMode_events (m : PpuMode) (s : State) : (enterMode m s).events = s.events := by
  unfold enterMode; dsimp only; split <;> simp
@[simp] theorem enterMode_timer (m : PpuMode) (s : State) :
    ((enterMode m s).tcount, (enterMode m s).tov, (enterMode m s).tprev) = (s.tcount, s.tov, s.tprev) := by
  unfold enterMode; dsimp only; split <;> simp

@[simp] theorem lyAndCoincidence_devices (s : State) : (lyAndCoincidence s).devices = s.devices := by
  unfold lyAndCoincidence
  dsimp only
  split
  · split
    · simp [State.devices]
    · split <;> simp [State.devices]
  · simp [State.devices]

/-- The timer leaves the PPU and the display alone. -/
theorem timerTick_ppu (s : State) :
    (timerTick s).pmode = s.pmode ∧ (timerTick s).ly = s.ly ∧ (timerTick s).pcnt = s.pcnt ∧
      (timerTick s).events = s.events := by
  have h1 : ∀ u : State, (timerReload u).pmode = u.pmode ∧ (timerReload u).ly = u.ly ∧
      (timerReload u).pcnt = u.pcnt ∧ (timerReload u).events = u.events := by
    intro u; unfold timerReload; split <;> simp
  have h2 : ∀ u : State, (timerEdge u).pmode = u.pmode ∧ (timerEdge u).ly = u.ly ∧
      (timerEdge u).pcnt = u.pcnt ∧ (timerEdge u).events = u.events := by
    intro u; unfold timerEdge timerIncrement; dsimp only; split
    · split <;> simp
    · simp
  obtain ⟨a1, a2, a3, a4⟩ := h1 s
  obtain ⟨b1, b2, b3, b4⟩ := h2 (timerAdvance (timerReload s))
  simp only [timerTick, b1, b2, b3, b4]
  simp [timerAdvance, a1, a2, a3, a4]

/-- The PPU leaves the timer alone. -/
theorem ppuStep_timer (s : State) :
    (ppuStep s).tcount = s.tcount ∧ (ppuStep s).tov = s.tov ∧ (ppuStep s).tprev = s.tprev := by
  have hl : ∀ u : State, (lyAndCoincidence u).tcount = u.tcount ∧ (lyAndCoincidence u).tov = u.tov ∧
      (lyAndCoincidence u).tprev = u.tprev := by
    intro u
    have := lyAndCoincidence_devices u
    simp only [State.devices, Devices.mk.injEq] at this
    exact ⟨this.1, this.2.1, this.2.2.1⟩
  have he : ∀ (m : PpuMode) (u : State), (enterMode m u).tcount = u.tcount ∧ (enterMode m u).tov = u.tov ∧
      (enterMode m u).tprev = u.tprev := by
    intro m u
    have := enterMode_timer m u
    simp only [Prod.mk.injEq] at this
    exact this
  have ha : ∀ u : State, (ppuAdvance u).tcount = u.tcount ∧ (ppuAdvance u).tov = u.tov ∧
      (ppuAdvance u).tprev = u.tprev := by
    intro u
    unfold ppuAdvance renderScanline
    split
    · split <;> simp [he]
    · split <;> simp [he]
    · split
      · dsimp only; split <;> simp [he]
      · simp
    · split
      · simp [he]
      · split <;> simp
  obtain ⟨h1, h2, h3⟩ := hl (ppuAdvance { s with pcnt := s.pcnt + 1 })
  obtain ⟨g1, g2, g3⟩ := ha { s with pcnt := s.pcnt + 1 }
  exact ⟨by rw [ppuStep, h1, g1], by rw [ppuStep, h2, g2], by rw [ppuStep, h3, g3]⟩

end Sys2Proof.Machine
end

