-- ==== Sys2Proof/Laws/Devices.lean ====
section
/-! SUPPORT. Said once: what each action of the timer and of the PPU does, byte by byte and field by field. -/

namespace Sys2Proof.Machine

/-- A read after a bus write to an unprotected address, in a canonical memory. -/
theorem memRead_memWrite {s : State} (hw : s.mem.wf = true) (x a : Word) (v : Byte) (hp : writeProtected a = false) :
    (s.memWrite a v).memRead x = if x = a then v else s.memRead x := by
  split
  · rename_i h
    subst h
    exact memRead_memWrite_same hw v hp
  · exact memRead_memWrite_other s v ‹_›

/-- None of the bytes the devices write is protected (20_memory.md R85). -/
theorem deviceBytes_unprotected :
    writeProtected addrIF = false ∧ writeProtected addrTIMA = false ∧ writeProtected addrDIV = false ∧
      writeProtected addrSTAT = false ∧ writeProtected addrLY = false := by decide

theorem requestInterrupt_memRead {s : State} (hw : s.mem.wf = true) (k : Irq) (x : Word) :
    (requestInterrupt k s).memRead x = if x = addrIF then s.memRead addrIF ||| k.mask else s.memRead x :=
  memRead_memWrite hw _ _ _ deviceBytes_unprotected.1

theorem requestInterrupt_wf {s : State} (hw : s.mem.wf = true) (k : Irq) : (requestInterrupt k s).mem.wf = true :=
  memWrite_wf hw _ _

theorem requestInterrupt_record (k : Irq) (s : State) :
    requestInterrupt k s = { s with mem := (requestInterrupt k s).mem } := memWrite_eq _ _ _

theorem requestInterrupt_bytes (k : Irq) (s : State) : SameBytesExcept [addrIF] s (requestInterrupt k s) := .memWrite _ _ _

/-! ### The timer (60_exceptions.md R390) -/

/-- Action (1). -/
theorem timerReload_spec {s : State} (hw : s.mem.wf = true) :
    (timerReload s).mem.wf = true ∧ (timerReload s).tov = false ∧
    (∀ x, (timerReload s).memRead x =
      if x = addrTIMA then (if s.tov then s.memRead addrTMA else s.memRead addrTIMA)
      else if x = addrIF then (if s.tov then s.memRead addrIF ||| 0x04 else s.memRead addrIF)
      else s.memRead x) := by
  rcases ht : s.tov with _ | _
  · have hs : timerReload s = s := by simp [timerReload, ht]
    rw [hs]
    refine ⟨hw, ht, fun x => ?_⟩
    split
    · simp_all
    · split <;> simp_all
  · have hs : timerReload s =
        { requestInterrupt .timer (s.memWrite addrTIMA (s.memRead addrTMA)) with tov := false } := by
      simp [timerReload, ht]
    have h1 := memWrite_wf hw addrTIMA (s.memRead addrTMA)
    rw [hs]
    refine ⟨requestInterrupt_wf h1 _, rfl, fun x => ?_⟩
    change (requestInterrupt .timer (s.memWrite addrTIMA (s.memRead addrTMA))).memRead x = _
    rw [requestInterrupt_memRead h1, memRead_memWrite hw _ _ _ deviceBytes_unprotected.2.1,
      memRead_memWrite hw _ _ _ deviceBytes_unprotected.2.1]
    by_cases hx : x = addrIF
    · subst hx; simp [addrIF, addrTIMA, Irq.mask, Irq.index]
    · simp [hx]

theorem timerReload_record (s : State) : timerReload s = { s with tov := (timerReload s).tov, mem := (timerReload s).mem } := by
  unfold timerReload
  split
  · rw [requestInterrupt_record, memWrite_eq s]
  · rfl

theorem timerReload_bytes (s : State) : SameBytesExcept [addrTIMA, addrIF] s (timerReload s) := by
  unfold timerReload
  split
  · exact ((SameBytesExcept.memWrite s _ _).mono (by simp)).trans
      (((requestInterrupt_bytes .timer _).mono (by simp)).trans (.ofMem rfl _))
  · exact .ofMem rfl _

/-- Actions (2) and (3). -/
theorem timerAdvance_spec {s : State} (hw : s.mem.wf = true) :
    (timerAdvance s).mem.wf = true ∧
    (∀ x, (timerAdvance s).memRead x = if x = addrDIV then hiByte (s.tcount + 1) else s.memRead x) := by
  have hw' : (State.mem { s with tcount := s.tcount + 1 }).wf = true := hw
  exact ⟨memWrite_wf hw' _ _, fun x => memRead_memWrite hw' _ _ _ deviceBytes_unprotected.2.2.1⟩

theorem timerAdvance_record (s : State) :
    timerAdvance s = { s with tcount := s.tcount + 1, mem := (timerAdvance s).mem } := memWrite_eq _ _ _

theorem timerAdvance_bytes (s : State) : SameBytesExcept [addrDIV] s (timerAdvance s) :=
  SameBytesExcept.trans (t := { s with tcount := s.tcount + 1 }) (.ofMem rfl _) (.memWrite _ _ _)

theorem timerIncrement_record (s : State) :
    timerIncrement s = { s with tov := (timerIncrement s).tov, mem := (timerIncrement s).mem } := by
  unfold timerIncrement
  dsimp only
  split
  · rw [memWrite_eq]
  · rw [memWrite_eq]

theorem timerIncrement_bytes (s : State) : SameBytesExcept [addrTIMA] s (timerIncrement s) := by
  unfold timerIncrement
  dsimp only
  split
  · exact (SameBytesExcept.memWrite s _ _).trans (.ofMem rfl _)
  · exact .memWrite _ _ _

/-- The increment of TIMA, with the overflow latched on a wrap. -/
theorem timerIncrement_spec {s : State} (hw : s.mem.wf = true) (ho : s.tov = false) :
    (timerIncrement s).tov = (s.memRead addrTIMA == 0xFF) ∧
    (∀ x, (timerIncrement s).memRead x = if x = addrTIMA then s.memRead addrTIMA + 1 else s.memRead x) := by
  unfold timerIncrement
  dsimp only
  split
  · rename_i h
    refine ⟨by rw [h]; rfl, fun x => ?_⟩
    change (s.memWrite addrTIMA 0x00).memRead x = _
    rw [memRead_memWrite hw _ _ _ deviceBytes_unprotected.2.1, h]
    rfl
  · rename_i h
    refine ⟨?_, fun x => memRead_memWrite hw _ _ _ deviceBytes_unprotected.2.1⟩
    rw [beq_eq_false_iff_ne.mpr h]
    simpa using ho

/-- Actions (4) and (5). -/
theorem timerEdge_eq (s : State) :
    timerEdge s = { (if s.tprev && !timerSample s then timerIncrement s else s) with tprev := timerSample s } := rfl

theorem timerEdge_spec {s : State} (hw : s.mem.wf = true) (ho : s.tov = false) :
    (timerEdge s).tov = (s.tprev && !timerSample s && s.memRead addrTIMA == 0xFF) ∧
    (timerEdge s).tprev = timerSample s ∧
    (∀ x, (timerEdge s).memRead x =
      if x = addrTIMA then (if s.tprev && !timerSample s then s.memRead addrTIMA + 1 else s.memRead addrTIMA)
      else s.memRead x) := by
  rw [timerEdge_eq]
  obtain ⟨h1, h2⟩ := timerIncrement_spec hw ho
  rcases s.tprev && !timerSample s with _ | _
  · refine ⟨by simpa using ho, rfl, fun x => ?_⟩
    change s.memRead x = _
    split <;> simp_all
  · exact ⟨h1, rfl, h2⟩

theorem timerEdge_record (s : State) :
    timerEdge s = { s with tov := (timerEdge s).tov, tprev := (timerEdge s).tprev, mem := (timerEdge s).mem } := by
  rw [timerEdge_eq]
  split
  · rw [timerIncrement_record]
  · rfl

theorem timerEdge_bytes (s : State) : SameBytesExcept [addrTIMA] s (timerEdge s) := by
  rw [timerEdge_eq]
  split
  · exact (timerIncrement_bytes s).trans (.ofMem rfl _)
  · exact .ofMem rfl _

theorem timerTick_record (s : State) :
    timerTick s = { s with
      tcount := s.tcount + 1, tov := (timerTick s).tov, tprev := (timerTick s).tprev, mem := (timerTick s).mem } := by
  unfold timerTick
  rw [timerEdge_record, timerAdvance_record, timerReload_record]

theorem timerTick_bytes (s : State) : SameBytesExcept [addrDIV, addrTIMA, addrIF] s (timerTick s) :=
  ((timerReload_bytes s).mono (by simp)).trans
    (((timerAdvance_bytes _).mono (by simp)).trans ((timerEdge_bytes _).mono (by simp)))

/-- DIV mirrors the counter after a tick. -/
theorem timerTick_div {s : State} (hw : s.mem.wf = true) : (timerTick s).memRead addrDIV = hiByte (timerTick s).tcount := by
  obtain ⟨h1, -, -⟩ := timerReload_spec hw
  have h2 := (timerAdvance_spec h1).2 addrDIV
  have h3 := timerEdge_bytes (timerAdvance (timerReload s)) addrDIV (by decide)
  rw [timerTick, h3, h2, timerEdge_record, timerAdvance_record]
  rfl

/-! ### The PPU (R400 to R402) -/

theorem enterMode_record (m : PpuMode) (s : State) :
    enterMode m s = { s with pmode := m, mem := (enterMode m s).mem } := by
  unfold enterMode
  dsimp only
  split
  · rw [requestInterrupt_record, memWrite_eq]
  · rw [memWrite_eq]

theorem enterMode_bytes (m : PpuMode) (s : State) : SameBytesExcept [addrSTAT, addrIF] s (enterMode m s) := by
  have h : SameBytesExcept [addrSTAT, addrIF] s { s with pmode := m } := .ofMem rfl _
  unfold enterMode
  dsimp only
  split
  · exact h.trans (((SameBytesExcept.memWrite _ _ _).mono (by simp)).trans ((requestInterrupt_bytes _ _).mono (by simp)))
  · exact h.trans ((SameBytesExcept.memWrite _ _ _).mono (by simp))

theorem enterMode_wf {s : State} (hw : s.mem.wf = true) (m : PpuMode) : (enterMode m s).mem.wf = true :=
  (enterMode_effect m s).wf hw

theorem enterMode_memRead {s : State} (hw : s.mem.wf = true) (m : PpuMode) (x : Word) :
    (enterMode m s).memRead x =
      if x = addrSTAT then (s.memRead addrSTAT &&& 0xFC) ||| m.number
      else if x = addrIF then
        (if modeIrqEnabled m (s.memRead addrSTAT) then s.memRead addrIF ||| 0x02 else s.memRead addrIF)
      else s.memRead x := by
  have hw1 : (State.mem { s with pmode := m }).wf = true := hw
  have hr (y : Word) : (State.memWrite { s with pmode := m } addrSTAT ((s.memRead addrSTAT &&& 0xFC) ||| m.number)).memRead y
      = if y = addrSTAT then (s.memRead addrSTAT &&& 0xFC) ||| m.number else s.memRead y :=
    memRead_memWrite hw1 _ _ _ deviceBytes_unprotected.2.2.2.1
  have he : enterMode m s =
      if modeIrqEnabled m (s.memRead addrSTAT) then
        requestInterrupt .lcdStat
          (State.memWrite { s with pmode := m } addrSTAT ((s.memRead addrSTAT &&& 0xFC) ||| m.number))
      else State.memWrite { s with pmode := m } addrSTAT ((s.memRead addrSTAT &&& 0xFC) ||| m.number) := rfl
  have hne : addrIF ≠ addrSTAT := by decide
  rw [he]
  split
  · rw [requestInterrupt_memRead (memWrite_wf hw1 _ _), hr, hr, if_neg hne]
    by_cases h1 : x = addrIF
    · rw [h1, if_pos rfl, if_neg hne, if_pos rfl]; rfl
    · rw [if_neg h1, if_neg h1]
  · rw [hr]
    by_cases h1 : x = addrIF
    · rw [h1, if_neg hne, if_neg hne, if_pos rfl]
    · rw [if_neg h1]

theorem lyAndCoincidence_record (s : State) : lyAndCoincidence s = { s with mem := (lyAndCoincidence s).mem } := by
  unfold lyAndCoincidence
  dsimp only
  split
  · split
    · exact memWrite_eq _ _ _
    · split
      · rw [requestInterrupt_record, memWrite_eq, memWrite_eq s]
      · rw [memWrite_eq, memWrite_eq s]
  · rw [memWrite_eq, memWrite_eq s]

theorem lyAndCoincidence_bytes (s : State) : SameBytesExcept [addrLY, addrSTAT, addrIF] s (lyAndCoincidence s) := by
  have h : SameBytesExcept [addrLY, addrSTAT, addrIF] s (s.memWrite addrLY (BitVec.ofNat 8 s.ly)) :=
    (SameBytesExcept.memWrite _ _ _).mono (by simp)
  have h2 (u : State) (v : Byte) : SameBytesExcept [addrLY, addrSTAT, addrIF] u (u.memWrite addrSTAT v) :=
    (SameBytesExcept.memWrite _ _ _).mono (by simp)
  unfold lyAndCoincidence
  dsimp only
  split
  · split
    · exact h
    · split
      · exact h.trans ((h2 _ _).trans ((requestInterrupt_bytes _ _).mono (by simp)))
      · exact h.trans (h2 _ _)
  · exact h.trans (h2 _ _)

/-- The coincidence condition, on the byte of LYC. -/
abbrev lyMatches (s : State) : Prop := s.ly = (s.memRead addrLYC).toNat

theorem stat_or_same : ∀ v : Byte, v.getLsbD 2 = true → v ||| 0x04 = v := by decide

theorem lyAndCoincidence_memRead {s : State} (hw : s.mem.wf = true) (x : Word) :
    (lyAndCoincidence s).memRead x =
      if x = addrLY then BitVec.ofNat 8 s.ly
      else if x = addrSTAT then
        (if lyMatches s then s.memRead addrSTAT ||| 0x04 else s.memRead addrSTAT &&& 0xFB)
      else if x = addrIF then
        (if lyMatches s ∧ (s.memRead addrSTAT).getLsbD 2 = false ∧ (s.memRead addrSTAT).getLsbD 6 = true then
          s.memRead addrIF ||| 0x02 else s.memRead addrIF)
      else s.memRead x := by
  obtain ⟨-, -, -, hpS, hpL⟩ := deviceBytes_unprotected
  have hw1 := memWrite_wf hw addrLY (BitVec.ofNat 8 s.ly)
  have r1 (y : Word) := memRead_memWrite hw y addrLY (BitVec.ofNat 8 s.ly) hpL
  have r2 (v : Byte) (y : Word) := memRead_memWrite hw1 y addrSTAT v hpS
  have n1 : addrSTAT ≠ addrLY := by decide
  have n2 : addrIF ≠ addrLY := by decide
  have n3 : addrLYC ≠ addrLY := by decide
  have n4 : addrIF ≠ addrSTAT := by decide
  have hl : (s.memWrite addrLY (BitVec.ofNat 8 s.ly)).ly = s.ly := by simp
  unfold lyAndCoincidence
  dsimp only
  rw [hl, r1 addrLYC, if_neg n3, r1 addrSTAT, if_neg n1]
  by_cases hm : lyMatches s
  · rw [if_pos hm]
    rcases h2 : (s.memRead addrSTAT).getLsbD 2 with _ | _
    · rcases h6 : (s.memRead addrSTAT).getLsbD 6 with _ | _
      · rw [if_neg Bool.false_ne_true, if_neg Bool.false_ne_true, r2, r1, if_pos hm,
          if_neg (show ¬(lyMatches s ∧ false = false ∧ false = true) from fun h => Bool.false_ne_true h.2.2)]
        by_cases hx : x = addrSTAT
        · rw [if_pos hx, hx, if_neg n1, if_pos rfl]
        · rw [if_neg hx, if_neg hx]
          split
          · rfl
          · split
            · rename_i h; rw [h]
            · rfl
      · rw [if_neg Bool.false_ne_true, if_pos rfl, requestInterrupt_memRead (memWrite_wf hw1 _ _), r2, r2, if_neg n4, r1,
          r1, if_neg n2, if_pos hm, if_pos (show lyMatches s ∧ false = false ∧ true = true from ⟨hm, rfl, rfl⟩)]
        by_cases hI : x = addrIF
        · rw [hI, if_pos rfl, if_neg n2, if_neg n4, if_pos rfl]; rfl
        · rw [if_neg hI, if_neg hI]
          by_cases hx : x = addrSTAT
          · rw [if_pos hx, hx, if_neg n1, if_pos rfl]
          · rw [if_neg hx, if_neg hx]
    · rw [if_pos rfl, r1, if_pos hm, 
        if_neg (show ¬(lyMatches s ∧ true = false ∧ (s.memRead addrSTAT).getLsbD 6 = true) from
          fun h => Bool.noConfusion h.2.1), stat_or_same _ h2]
      split
      · rfl
      · split
        · rename_i h; rw [h]
        · split
          · rename_i h; rw [h]
          · rfl
  · rw [if_neg hm, r2, r1, if_neg hm,
      if_neg (show ¬(lyMatches s ∧ (s.memRead addrSTAT).getLsbD 2 = false ∧ (s.memRead addrSTAT).getLsbD 6 = true) from
        fun h => hm h.1)]
    by_cases hx : x = addrSTAT
    · rw [if_pos hx, hx, if_neg n1, if_pos rfl]
    · rw [if_neg hx, if_neg hx]
      split
      · rfl
      · split
        · rename_i h; rw [h]
        · rfl

theorem ppuAdvance_record (s : State) :
    ppuAdvance s = { s with
      pmode := (ppuAdvance s).pmode, ly := (ppuAdvance s).ly, pcnt := (ppuAdvance s).pcnt, events := (ppuAdvance s).events,
      mem := (ppuAdvance s).mem } := by
  unfold ppuAdvance
  split
  · split
    · rw [enterMode_record]
    · rfl
  · split
    · rw [enterMode_record]; rfl
    · rfl
  · split
    · dsimp only
      split
      · rw [requestInterrupt_record, enterMode_record]; rfl
      · rw [enterMode_record]
    · rfl
  · split
    · rw [enterMode_record]
    · split <;> rfl

theorem ppuAdvance_bytes (s : State) : SameBytesExcept [addrSTAT, addrIF] s (ppuAdvance s) := by
  have h {l : List Word} {u t : State} (hm : t.mem = u.mem) : SameBytesExcept l u t := .ofMem hm _
  unfold ppuAdvance
  split
  · split
    · exact (h rfl).trans (enterMode_bytes _ _)
    · exact h rfl
  · split
    · exact (SameBytesExcept.ofMem rfl _).trans (enterMode_bytes _ _)
    · exact h rfl
  · split
    · dsimp only
      split
      · refine SameBytesExcept.trans (t := enterMode .vBlank { s with pcnt := 0, ly := s.ly + 1 })
          ((SameBytesExcept.ofMem rfl _).trans (enterMode_bytes _ _)) ?_
        exact SameBytesExcept.trans ((requestInterrupt_bytes .vBlank _).mono (by simp)) (.ofMem rfl _)
      · exact (SameBytesExcept.ofMem rfl _).trans (enterMode_bytes _ _)
    · exact h rfl
  · split
    · exact (SameBytesExcept.ofMem rfl _).trans (enterMode_bytes _ _)
    · split <;> exact h rfl

theorem ppuStep_record (s : State) :
    ppuStep s = { s with
      pmode := (ppuStep s).pmode, ly := (ppuStep s).ly, pcnt := (ppuStep s).pcnt, events := (ppuStep s).events,
      mem := (ppuStep s).mem } := by
  unfold ppuStep
  rw [lyAndCoincidence_record, ppuAdvance_record]

theorem ppuStep_bytes (s : State) : SameBytesExcept [addrIF, addrSTAT, addrLY] s (ppuStep s) :=
  (SameBytesExcept.ofMem rfl _).trans
    (((ppuAdvance_bytes { s with pcnt := s.pcnt + 1 }).mono (by simp)).trans ((lyAndCoincidence_bytes _).mono (by simp)))

/-- LY mirrors the scanline index after a PPU step. -/
theorem ppuStep_ly {s : State} (hw : s.mem.wf = true) : (ppuStep s).memRead addrLY = BitVec.ofNat 8 (ppuStep s).ly := by
  have hw1 : (ppuAdvance { s with pcnt := s.pcnt + 1 }).mem.wf = true := (ppuAdvance_effect _).wf hw
  rw [ppuStep, lyAndCoincidence_memRead hw1, if_pos rfl, lyAndCoincidence_record]

/-! ### The mode machine -/

/-- The mode, scanline index and counter, without the counter's advance. -/
theorem ppuAdvance_mode (s : State) :
    ((ppuAdvance s).pmode, (ppuAdvance s).ly, (ppuAdvance s).pcnt) =
      match s.pmode with
      | .oamScan => if s.pcnt = 80 then (.pixelTransfer, s.ly, 0) else (.oamScan, s.ly, s.pcnt)
      | .pixelTransfer => if s.pcnt = 172 then (.hBlank, s.ly, 0) else (.pixelTransfer, s.ly, s.pcnt)
      | .hBlank =>
        if s.pcnt = 204 then (if s.ly + 1 = 144 then (.vBlank, s.ly + 1, 0) else (.oamScan, s.ly + 1, 0))
        else (.hBlank, s.ly, s.pcnt)
      | .vBlank =>
        if s.pcnt = 4560 then (.oamScan, 0, 0)
        else if s.pcnt % 456 = 0 then (.vBlank, s.ly + 1, s.pcnt) else (.vBlank, s.ly, s.pcnt) := by
  unfold ppuAdvance
  rcases hm : s.pmode with _ | _ | _ | _ <;> dsimp only
  · split
    · split
      · simp only [State.emit]
        rw [requestInterrupt_record, enterMode_record]
      · rw [enterMode_record]
    · rw [hm]
  · split
    · rw [enterMode_record]
    · split <;> simp [hm]
  · split
    · rw [enterMode_record]
    · rw [hm]
  · split
    · rw [enterMode_record]; rfl
    · rw [hm]

/-- The events emitted, by the mode and the advanced counter: a scanline, Repaint, or nothing. -/
theorem ppuAdvance_events (s : State) :
    (ppuAdvance s).events = s.events ++
      (if s.pmode = .pixelTransfer ∧ s.pcnt = 172 then
        (List.range 160).map fun x => .setPixel x s.ly (pixelShade s s.ly x)
      else if s.pmode = .hBlank ∧ s.pcnt = 204 ∧ s.ly + 1 = 144 then [.repaint] else []) := by
  have he (m : PpuMode) (u : State) : (enterMode m u).events = u.events := enterMode_events m u
  unfold ppuAdvance
  rcases hm : s.pmode with _ | _ | _ | _ <;> dsimp only
  · by_cases h : s.pcnt = 204
    · by_cases h2 : s.ly + 1 = 144
      · simp only [h, h2, if_true, State.emit]
        rw [requestInterrupt_record, he]
        simp
      · simp [h, h2]
    · simp [h]
  · simp only [reduceCtorEq, false_and, if_false, List.append_nil]
    split
    · rw [he]
    · split <;> rfl
  · simp only [reduceCtorEq, false_and, if_false, List.append_nil]
    split
    · rw [he]
    · rfl
  · by_cases h : s.pcnt = 172
    · simp only [h, if_true, and_self, he, renderScanline, State.emit]
      rfl
    · simp [h]

theorem ppuStep_mode (s : State) :
    ((ppuStep s).pmode, (ppuStep s).ly, (ppuStep s).pcnt) =
      ((ppuAdvance { s with pcnt := s.pcnt + 1 }).pmode, (ppuAdvance { s with pcnt := s.pcnt + 1 }).ly,
        (ppuAdvance { s with pcnt := s.pcnt + 1 }).pcnt) := by
  rw [ppuStep, lyAndCoincidence_record]

/-! ### What ticks leave of the bytes, and so of the picture -/

/-- The bytes that the devices write (10_state.md R70). -/
def deviceBytes : List Word := [addrDIV, addrTIMA, addrIF, addrSTAT, addrLY]

theorem tick_bytes (s : State) : SameBytesExcept deviceBytes s (tick s) :=
  ((timerTick_bytes s).mono (by simp [deviceBytes])).trans ((ppuStep_bytes _).mono (by simp [deviceBytes]))

theorem forwardTicks_bytes (n : Nat) (s : State) : SameBytesExcept deviceBytes s (forwardTicks n s) :=
  forwardTicks_induction (P := fun t => SameBytesExcept deviceBytes s t) (fun t h => h.trans (tick_bytes t)) n
    (.ofMem rfl _)

/-- No tile or map byte is one the devices write. -/
theorem not_deviceByte {a : Word} (h : a.toNat < 0xA000) : a ∉ deviceBytes := by
  intro hm
  simp only [deviceBytes, List.mem_cons, List.not_mem_nil, or_false] at hm
  rcases hm with rfl | rfl | rfl | rfl | rfl <;> exact absurd h (by decide)

/-- Every tile lies in 0x8000 to 0x97FF (60_exceptions.md R405). -/
theorem tileAddress_bounds (lcdc idx : Byte) :
    0x8000 ≤ (tileAddress lcdc idx).toNat ∧ (tileAddress lcdc idx).toNat ≤ 0x97F0 := by
  unfold tileAddress
  split
  · revert idx; decide
  · revert idx; decide

/-- A shade depends on no byte that the devices write. -/
theorem pixelShade_congr {s t : State} (h : SameBytesExcept deviceBytes s t) (y x : Nat) :
    pixelShade t y x = pixelShade s y x := by
  have hl : t.memRead addrLCDC = s.memRead addrLCDC := h _ (by decide)
  have hb : t.memRead addrBGP = s.memRead addrBGP := h _ (by decide)
  have hx : t.memRead addrSCX = s.memRead addrSCX := h _ (by decide)
  have hy : t.memRead addrSCY = s.memRead addrSCY := h _ (by decide)
  unfold pixelShade
  dsimp only
  rw [hl, hb, hx, hy]
  split
  · generalize BitVec.ofNat 8 x + s.memRead addrSCX = wx
    generalize BitVec.ofNat 8 y + s.memRead addrSCY = wy
    have hwx := wx.isLt
    have hwy := wy.isLt
    have hmap : t.memRead ((if (s.memRead addrLCDC).getLsbD 3 then (0x9C00 : Word) else 0x9800) +
          BitVec.ofNat 16 (wy.toNat / 8 * 32 + wx.toNat / 8)) =
        s.memRead ((if (s.memRead addrLCDC).getLsbD 3 then (0x9C00 : Word) else 0x9800) +
          BitVec.ofNat 16 (wy.toNat / 8 * 32 + wx.toNat / 8)) := by
      apply h
      apply not_deviceByte
      rw [BitVec.toNat_add, BitVec.toNat_ofNat]
      split
      · rw [show (0x9C00 : Word).toNat = 0x9C00 from rfl]; omega
      · rw [show (0x9800 : Word).toNat = 0x9800 from rfl]; omega
    rw [hmap]
    generalize s.memRead ((if (s.memRead addrLCDC).getLsbD 3 then (0x9C00 : Word) else 0x9800) +
          BitVec.ofNat 16 (wy.toNat / 8 * 32 + wx.toNat / 8)) = idx
    obtain ⟨-, ht⟩ := tileAddress_bounds (s.memRead addrLCDC) idx
    generalize tileAddress (s.memRead addrLCDC) idx = ta at ht
    have h1 : (ta + BitVec.ofNat 16 (wy.toNat % 8 * 2)).toNat ≤ 0x97FE := by
      rw [BitVec.toNat_add, BitVec.toNat_ofNat]; omega
    have h2 : (ta + BitVec.ofNat 16 (wy.toNat % 8 * 2) + 1).toNat < 0xA000 := by
      rw [BitVec.toNat_add, show (1 : Word).toNat = 1 from rfl]; omega
    rw [h _ (not_deviceByte h2), h (ta + BitVec.ofNat 16 (wy.toNat % 8 * 2)) (not_deviceByte (by omega))]
  · rfl

/-! ### What each device keeps (70_reset_and_hazards.md R442) -/

/-- After a timer tick a latched overflow has a clear sample beside it, whatever there was before. -/
theorem timerTick_consistent (s : State) : (timerTick s).TimerConsistent := by
  have ho : (timerAdvance (timerReload s)).tov = false := by
    rw [timerAdvance_record]
    unfold timerReload
    split
    · rfl
    · simpa using ‹¬ s.tov = true›
  intro h
  unfold timerTick at *
  rw [timerEdge_eq] at *
  rcases hb : (timerAdvance (timerReload s)).tprev && !timerSample (timerAdvance (timerReload s)) with _ | _
  · rw [hb] at h
    exact absurd (ho ▸ h) Bool.false_ne_true
  · rw [Bool.and_eq_true] at hb
    simpa using hb.2

/-- A PPU step keeps the scanline index and the counter in the ranges of the mode. -/
theorem ppuStep_inRange {s : State} (h : s.PpuInRange) : (ppuStep s).PpuInRange := by
  have h1 := (ppuStep_mode s).trans (ppuAdvance_mode { s with pcnt := s.pcnt + 1 })
  unfold State.PpuInRange at h
  rcases hm : s.pmode with _ | _ | _ | _ <;> simp only [hm] at h h1 <;>
    (split at h1 <;> (try split at h1) <;> simp only [Prod.mk.injEq] at h1 <;> obtain ⟨a, b, c⟩ := h1 <;>
      simp only [State.PpuInRange, a, b, c] <;> omega)

end Sys2Proof.Machine
end

