-- ==== Sys2Proof/Laws/PerInstr.lean ====
section
/-! SUPPORT. A law per instruction as syntax: the first byte of an encoding tells its length (30_encoding.md R120, R135). -/

namespace Sys2Proof.Laws.FirstByteTellsLength

/-- The encoding has the number of bytes its first byte tells. -/
def Statement (i : Instr) : Prop := (encode i).length = opLength ((encode i).headD 0)

theorem nop : Statement .nop := rfl
theorem stop (pad : Byte) : Statement (.stop pad) := rfl
theorem halt : Statement .halt := rfl
theorem di : Statement .di := rfl
theorem ei : Statement .ei := rfl
theorem ldRR (dst src : R8) : Statement (.ldRR dst src) := by cases dst <;> cases src <;> rfl
theorem ldRN (dst : R8) (n8 : Byte) : Statement (.ldRN dst n8) := by cases dst <;> rfl
theorem ldRM (dst : R8) : Statement (.ldRM dst) := by cases dst <;> rfl
theorem ldMR (src : R8) : Statement (.ldMR src) := by cases src <;> rfl
theorem ldMN (n8 : Byte) : Statement (.ldMN n8) := rfl
theorem ldABc : Statement .ldABc := rfl
theorem ldADe : Statement .ldADe := rfl
theorem ldBcA : Statement .ldBcA := rfl
theorem ldDeA : Statement .ldDeA := rfl
theorem ldAAbs (a16 : Word) : Statement (.ldAAbs a16) := rfl
theorem ldAbsA (a16 : Word) : Statement (.ldAbsA a16) := rfl
theorem ldhAImm (a8 : Byte) : Statement (.ldhAImm a8) := rfl
theorem ldhImmA (a8 : Byte) : Statement (.ldhImmA a8) := rfl
theorem ldhAC : Statement .ldhAC := rfl
theorem ldhCA : Statement .ldhCA := rfl
theorem ldHlIncA : Statement .ldHlIncA := rfl
theorem ldHlDecA : Statement .ldHlDecA := rfl
theorem ldAHlInc : Statement .ldAHlInc := rfl
theorem ldAHlDec : Statement .ldAHlDec := rfl
theorem ldRrNn (rr : R16) (n16 : Word) : Statement (.ldRrNn rr n16) := by cases rr <;> rfl
theorem ldAbsSp (a16 : Word) : Statement (.ldAbsSp a16) := rfl
theorem ldSpHl : Statement .ldSpHl := rfl
theorem push (rr : R16Stk) : Statement (.push rr) := by cases rr <;> rfl
theorem pop (rr : R16Stk) : Statement (.pop rr) := by cases rr <;> rfl
theorem addR (src : R8) : Statement (.addR src) := by cases src <;> rfl
theorem addM : Statement .addM := rfl
theorem addN (n8 : Byte) : Statement (.addN n8) := rfl
theorem adcR (src : R8) : Statement (.adcR src) := by cases src <;> rfl
theorem adcM : Statement .adcM := rfl
theorem adcN (n8 : Byte) : Statement (.adcN n8) := rfl
theorem subR (src : R8) : Statement (.subR src) := by cases src <;> rfl
theorem subM : Statement .subM := rfl
theorem subN (n8 : Byte) : Statement (.subN n8) := rfl
theorem sbcR (src : R8) : Statement (.sbcR src) := by cases src <;> rfl
theorem sbcM : Statement .sbcM := rfl
theorem sbcN (n8 : Byte) : Statement (.sbcN n8) := rfl
theorem andR (src : R8) : Statement (.andR src) := by cases src <;> rfl
theorem andM : Statement .andM := rfl
theorem andN (n8 : Byte) : Statement (.andN n8) := rfl
theorem xorR (src : R8) : Statement (.xorR src) := by cases src <;> rfl
theorem xorM : Statement .xorM := rfl
theorem xorN (n8 : Byte) : Statement (.xorN n8) := rfl
theorem orR (src : R8) : Statement (.orR src) := by cases src <;> rfl
theorem orM : Statement .orM := rfl
theorem orN (n8 : Byte) : Statement (.orN n8) := rfl
theorem cpR (src : R8) : Statement (.cpR src) := by cases src <;> rfl
theorem cpM : Statement .cpM := rfl
theorem cpN (n8 : Byte) : Statement (.cpN n8) := rfl
theorem incR (dst : R8) : Statement (.incR dst) := by cases dst <;> rfl
theorem incM : Statement .incM := rfl
theorem decR (dst : R8) : Statement (.decR dst) := by cases dst <;> rfl
theorem decM : Statement .decM := rfl
theorem daa : Statement .daa := rfl
theorem cpl : Statement .cpl := rfl
theorem scf : Statement .scf := rfl
theorem ccf : Statement .ccf := rfl
theorem addHlRr (rr : R16) : Statement (.addHlRr rr) := by cases rr <;> rfl
theorem incRr (rr : R16) : Statement (.incRr rr) := by cases rr <;> rfl
theorem decRr (rr : R16) : Statement (.decRr rr) := by cases rr <;> rfl
theorem addSpE (e8 : Byte) : Statement (.addSpE e8) := rfl
theorem ldHlSpE (e8 : Byte) : Statement (.ldHlSpE e8) := rfl
theorem rlca : Statement .rlca := rfl
theorem rrca : Statement .rrca := rfl
theorem rla : Statement .rla := rfl
theorem rra : Statement .rra := rfl
theorem jp (a16 : Word) : Statement (.jp a16) := rfl
theorem jpCc (cc : Cond) (a16 : Word) : Statement (.jpCc cc a16) := by cases cc <;> rfl
theorem jpHl : Statement .jpHl := rfl
theorem jr (e8 : Byte) : Statement (.jr e8) := rfl
theorem jrCc (cc : Cond) (e8 : Byte) : Statement (.jrCc cc e8) := by cases cc <;> rfl
theorem call (a16 : Word) : Statement (.call a16) := rfl
theorem callCc (cc : Cond) (a16 : Word) : Statement (.callCc cc a16) := by cases cc <;> rfl
theorem ret : Statement .ret := rfl
theorem retCc (cc : Cond) : Statement (.retCc cc) := by cases cc <;> rfl
theorem reti : Statement .reti := rfl
theorem rst (n : BitVec 3) : Statement (.rst n) := by revert n; unfold Statement; decide
theorem illegalD3 : Statement .illegalD3 := rfl
theorem illegalDB : Statement .illegalDB := rfl
theorem illegalDD : Statement .illegalDD := rfl
theorem illegalE3 : Statement .illegalE3 := rfl
theorem illegalE4 : Statement .illegalE4 := rfl
theorem illegalEB : Statement .illegalEB := rfl
theorem illegalEC : Statement .illegalEC := rfl
theorem illegalED : Statement .illegalED := rfl
theorem illegalF4 : Statement .illegalF4 := rfl
theorem illegalFC : Statement .illegalFC := rfl
theorem illegalFD : Statement .illegalFD := rfl
theorem prefixCB (second : Byte) : Statement (.prefixCB second) := rfl
theorem rlcR (dst : R8) : Statement (.rlcR dst) := rfl
theorem rlcM : Statement .rlcM := rfl
theorem rrcR (dst : R8) : Statement (.rrcR dst) := rfl
theorem rrcM : Statement .rrcM := rfl
theorem rlR (dst : R8) : Statement (.rlR dst) := rfl
theorem rlM : Statement .rlM := rfl
theorem rrR (dst : R8) : Statement (.rrR dst) := rfl
theorem rrM : Statement .rrM := rfl
theorem slaR (dst : R8) : Statement (.slaR dst) := rfl
theorem slaM : Statement .slaM := rfl
theorem sraR (dst : R8) : Statement (.sraR dst) := rfl
theorem sraM : Statement .sraM := rfl
theorem swapR (dst : R8) : Statement (.swapR dst) := rfl
theorem swapM : Statement .swapM := rfl
theorem srlR (dst : R8) : Statement (.srlR dst) := rfl
theorem srlM : Statement .srlM := rfl
theorem bitR (bit : BitVec 3) (reg : R8) : Statement (.bitR bit reg) := rfl
theorem bitM (bit : BitVec 3) : Statement (.bitM bit) := rfl
theorem resR (bit : BitVec 3) (reg : R8) : Statement (.resR bit reg) := rfl
theorem resM (bit : BitVec 3) : Statement (.resM bit) := rfl
theorem setR (bit : BitVec 3) (reg : R8) : Statement (.setR bit reg) := rfl
theorem setM (bit : BitVec 3) : Statement (.setM bit) := rfl

end Sys2Proof.Laws.FirstByteTellsLength
end

