-- ==== Sys2Proof/Laws/Step.lean ====
section
/-! SUPPORT. Said once: everything a Step can do. -/

namespace Sys2Proof.Machine

/-- The wake changes `halted` only. -/
theorem wake_eq (s : State) : wake s = { s with halted := (wake s).halted } := by
  unfold wake
  split <;> rfl

@[simp] theorem wake_ime (s : State) : (wake s).ime = s.ime := by rw [wake_eq]
@[simp] theorem wake_cycles (s : State) : (wake s).cycles = s.cycles := by rw [wake_eq]
@[simp] theorem wake_pc (s : State) : (wake s).pc = s.pc := by rw [wake_eq]
@[simp] theorem wake_mem (s : State) : (wake s).mem = s.mem := by rw [wake_eq]
@[simp] theorem wake_fault (s : State) : (wake s).fault = s.fault := by rw [wake_eq]

/-- The EI delay changes IME and `ei_pending` only. -/
theorem promoteEi_eq (p : Bool) (s : State) :
    promoteEi p s = { s with ime := (promoteEi p s).ime, eiPending := (promoteEi p s).eiPending } := by
  unfold promoteEi
  split <;> rfl

/-- An instruction answers a next state: it completes, or it is an undefined byte whose fault is recorded. -/
theorem exec_next (i : Instr) (s : State) :
    Completed s (exec i s) ∨
      ∃ op, i.undefinedOpcode = some op ∧
        exec i s = .next { s with fault := some (.unknownOpcode op (s.pc - 1)) } := by
  rcases h : i.undefinedOpcode with _ | op
  · exact .inl (exec_completed h s)
  · exact .inr ⟨op, rfl, exec_undefined h s⟩

/-- The CPU part of a Step: dispatch of the highest-priority interrupt, a halted cycle, or one instruction. -/
inductive CpuPart (s : State) : State → Prop where
  | dispatch (hi : s.ime = true) (hp : pendingEnabled s ≠ 0) :
      CpuPart s (dispatchInterrupt (lowestPending (pendingEnabled s)) (wake s))
  | idle (hn : ¬ (s.ime = true ∧ pendingEnabled s ≠ 0)) (hh : (wake s).halted = true) : CpuPart s ((wake s).spend 1)
  | ran (hn : ¬ (s.ime = true ∧ pendingEnabled s ≠ 0)) (hh : (wake s).halted = false) (t : State)
      (ht : exec (fetchInstr (wake s)) (fetchAdvance (wake s)) = .next t) :
      CpuPart s (promoteEi s.eiPending t)

theorem wake_eiPending (s : State) : (wake s).eiPending = s.eiPending := by rw [wake_eq]

theorem cpuPart_cases (s : State) : ∃ t, cpuPart s = .next t ∧ CpuPart s t := by
  unfold cpuPart
  dsimp only
  split
  · rename_i h
    simp only [wake_ime, Bool.and_eq_true, bne_iff_ne] at h
    exact ⟨_, rfl, .dispatch h.1 h.2⟩
  · rename_i hn
    have hn' : ¬ (s.ime = true ∧ pendingEnabled s ≠ 0) := by simpa using hn
    split
    · exact ⟨_, rfl, .idle hn' ‹_›⟩
    · rename_i hh
      have hh' : (wake s).halted = false := by simpa using hh
      have key : ∃ t, exec (fetchInstr (wake s)) (fetchAdvance (wake s)) = .next t := by
        rcases exec_next (fetchInstr (wake s)) (fetchAdvance (wake s)) with ⟨t, h, -⟩ | ⟨_, -, h⟩
        exacts [⟨t, h⟩, ⟨_, h⟩]
      obtain ⟨t, ht⟩ := key
      refine ⟨promoteEi s.eiPending t, ?_, .ran hn' hh' t ht⟩
      simp only [runInstruction, ht, wake_eiPending]

/-! ### Which part it is -/

/-- A core that is not halted, or is halted with an enabled interrupt pending, is not halted after the wake. -/
theorem wake_of_pending {s : State} (h : s.halted = true → pendingEnabled s ≠ 0) : wake s = { s with halted := false } := by
  unfold wake
  split
  · rfl
  · rename_i hn
    have hh : s.halted = false := by
      by_contra hc
      have ht : s.halted = true := by simpa using hc
      exact hn (by simp only [ht, Bool.true_and, bne_iff_ne]; exact h ht)
    rw [← hh]

/-- With nothing enabled pending the wake changes nothing. -/
theorem wake_of_none {s : State} (h : pendingEnabled s = 0) : wake s = s := by
  unfold wake
  rw [if_neg]
  simp [h]

/-- The CPU part with IME set and an enabled interrupt pending. -/
theorem cpuPart_dispatch {s : State} (hi : s.ime = true) (hp : pendingEnabled s ≠ 0) :
    cpuPart s = .next (dispatchInterrupt (lowestPending (pendingEnabled s)) { s with halted := false }) := by
  have hb : (pendingEnabled s != 0) = true := bne_iff_ne.mpr hp
  simp only [cpuPart, wake_of_pending fun _ => hp, hi, hb]
  rfl

/-- The CPU part of a halted core with nothing to wake it. -/
theorem cpuPart_idle {s : State} (hh : s.halted = true) (hp : pendingEnabled s = 0) :
    cpuPart s = .next { s with cycles := s.cycles + 1 } := by
  have hb : (pendingEnabled s != 0) = false := by simp [hp]
  simp only [cpuPart, wake_of_none hp, hb, Bool.and_false, hh, Bool.false_eq_true, if_false, if_true]
  simp [done, State.spend, hh]

/-- The CPU part of a running core is one instruction. -/
theorem cpuPart_running {s : State} (h : s.Running) : cpuPart s = runInstruction { s with halted := false } := by
  have hb : (s.ime && pendingEnabled s != 0) = false := by
    rw [← Bool.not_eq_true, Bool.and_eq_true, bne_iff_ne]
    exact h.2.2
  simp only [cpuPart, wake_of_pending h.2.1, hb]
  rfl

/-- A dispatch, write by write (60_exceptions.md R370). -/
theorem dispatchInterrupt_eq (k : Irq) (s : State) :
    dispatchInterrupt k s =
      { ((s.memWrite addrIF (s.memRead addrIF &&& ~~~k.mask)).memWrite (s.sp - 1) (hiByte s.pc)).memWrite (s.sp - 2)
          (loByte s.pc) with
        ime := false, sp := s.sp - 2, pc := k.vector, cycles := s.cycles + 5 } := by
  simp only [dispatchInterrupt, acknowledgeIrq, State.callTo, State.push16, State.jump, State.spend, memWrite_record]
  rfl

/-! ### The whole Step -/

/-- A Step answers a next state: the same one when stuck, else the CPU part's with its ticks. -/
theorem stepWith_cases (cfg : Config) (s : State) :
    (s.stuck = true ∧ stepWith cfg s = .next s) ∨
    ∃ t, s.stuck = false ∧ cpuPart s = .next t ∧ CpuPart s t ∧
      stepWith cfg s = .next (forwardTicks ((t.cycles - s.cycles) * cfg.ticksPerCycle) t) := by
  rcases h : s.stuck with _ | _
  · obtain ⟨t, ht, hc⟩ := cpuPart_cases s
    exact .inr ⟨t, rfl, ht, hc, by simp [stepWith, h, ht]⟩
  · exact .inl ⟨rfl, by simp [stepWith, h]⟩

/-- The Step of the standard parameters forwards one tick per cycle (log 1). -/
theorem step_cases (s : State) :
    (s.stuck = true ∧ step s = .next s) ∨
    ∃ t, s.stuck = false ∧ cpuPart s = .next t ∧ CpuPart s t ∧ step s = .next (forwardTicks (t.cycles - s.cycles) t) := by
  simpa [step, Config.standard] using stepWith_cases Config.standard s

end Sys2Proof.Machine
end

