-- ==== Sys2Proof/Tests/Slice0.lean ====
section
/-! SUPPORT. Tests. Expected values are those of 95_test_vectors.md, or worked out by hand from the rule a test names; words
are written out from the templates of opcode_table.json. The witnesses at the end meet the hypotheses of the statements. -/

namespace Sys2Proof.Tests

open Sys2Proof Sys2Proof.Machine

/-! ### Well-formed instructions -/

theorem test_wellFormed_refuses_the_bare_prefix : (Instr.prefixCB 0x37).wellFormed = false := rfl
theorem test_wellFormed_accepts_the_prefixed_instruction : (Instr.swapR .a).wellFormed = true := rfl

/-! ### Decoding -/

/-- The bytes are one whole instruction. -/
def reads (bytes : List Byte) (i : Instr) : Bool :=
  match decode bytes with
  | .ok (j, rest) => decide (j = i) && rest.isEmpty
  | .error _ => false

/-- Words of control and 8-bit loads, from their templates. -/
theorem test_decode_loads_a :
    reads [0b00000000] .nop ∧ reads [0b00010000, 0x9A] (.stop 0x9A) ∧ reads [0b01110110] .halt ∧
    reads [0b11110011] .di ∧ reads [0b11111011] .ei ∧ reads [0b01001100] (.ldRR .c .h) ∧
    reads [0b00100110, 0x9A] (.ldRN .h 0x9A) ∧ reads [0b01010110] (.ldRM .d) ∧ reads [0b01110011] (.ldMR .e) ∧
    reads [0b00110110, 0x9A] (.ldMN 0x9A) ∧ reads [0b00001010] .ldABc ∧ reads [0b00011010] .ldADe := by decide

/-- Words of control and 8-bit loads, from their templates. -/
theorem test_decode_loads_b :
    reads [0b00000010] .ldBcA ∧ reads [0b00010010] .ldDeA ∧ reads [0b11111010, 0x34, 0x12] (.ldAAbs 0x1234) ∧
    reads [0b11101010, 0x34, 0x12] (.ldAbsA 0x1234) ∧ reads [0b11110000, 0x9A] (.ldhAImm 0x9A) ∧
    reads [0b11100000, 0x9A] (.ldhImmA 0x9A) ∧ reads [0b11110010] .ldhAC ∧ reads [0b11100010] .ldhCA ∧
    reads [0b00100010] .ldHlIncA ∧ reads [0b00110010] .ldHlDecA ∧ reads [0b00101010] .ldAHlInc ∧
    reads [0b00111010] .ldAHlDec := by decide

/-- Words of 16-bit loads and the stack, from their templates. -/
theorem test_decode_pairs :
    reads [0b00010001, 0x34, 0x12] (.ldRrNn .de 0x1234) ∧ reads [0b00001000, 0x34, 0x12] (.ldAbsSp 0x1234) ∧
    reads [0b11111001] .ldSpHl ∧ reads [0b11000101] (.push .bc) ∧ reads [0b11010001] (.pop .de) := by decide

/-- Words of 8-bit arithmetic, from their templates. -/
theorem test_decode_arithmetic_a :
    reads [0b10000011] (.addR .e) ∧ reads [0b10000110] .addM ∧ reads [0b11000110, 0x9A] (.addN 0x9A) ∧
    reads [0b10001101] (.adcR .l) ∧ reads [0b10001110] .adcM ∧ reads [0b11001110, 0x9A] (.adcN 0x9A) ∧
    reads [0b10010010] (.subR .d) ∧ reads [0b10010110] .subM ∧ reads [0b11010110, 0x9A] (.subN 0x9A) ∧
    reads [0b10011000] (.sbcR .b) ∧ reads [0b10011110] .sbcM ∧ reads [0b11011110, 0x9A] (.sbcN 0x9A) := by decide

/-- Words of 8-bit arithmetic, from their templates. -/
theorem test_decode_arithmetic_b :
    reads [0b10100100] (.andR .h) ∧ reads [0b10100110] .andM ∧ reads [0b11100110, 0x9A] (.andN 0x9A) ∧
    reads [0b10101111] (.xorR .a) ∧ reads [0b10101110] .xorM ∧ reads [0b11101110, 0x9A] (.xorN 0x9A) ∧
    reads [0b10110001] (.orR .c) ∧ reads [0b10110110] .orM ∧ reads [0b11110110, 0x9A] (.orN 0x9A) ∧
    reads [0b10111011] (.cpR .e) ∧ reads [0b10111110] .cpM ∧ reads [0b11111110, 0x9A] (.cpN 0x9A) := by decide

/-- Words of 8-bit arithmetic, from their templates. -/
theorem test_decode_arithmetic_c :
    reads [0b00101100] (.incR .l) ∧ reads [0b00110100] .incM ∧ reads [0b00100101] (.decR .h) ∧
    reads [0b00110101] .decM ∧ reads [0b00100111] .daa ∧ reads [0b00101111] .cpl ∧ reads [0b00110111] .scf ∧
    reads [0b00111111] .ccf := by decide

/-- Words of 16-bit arithmetic, rotates of A and control transfer, from their templates. -/
theorem test_decode_transfer_a :
    reads [0b00101001] (.addHlRr .hl) ∧ reads [0b00110011] (.incRr .sp) ∧ reads [0b00001011] (.decRr .bc) ∧
    reads [0b11101000, 0x9A] (.addSpE 0x9A) ∧ reads [0b11111000, 0x9A] (.ldHlSpE 0x9A) ∧ reads [0b00000111] .rlca ∧
    reads [0b00001111] .rrca ∧ reads [0b00010111] .rla ∧ reads [0b00011111] .rra ∧
    reads [0b11000011, 0x34, 0x12] (.jp 0x1234) ∧ reads [0b11000010, 0x34, 0x12] (.jpCc .nz 0x1234) ∧
    reads [0b11101001] .jpHl := by decide

/-- Words of 16-bit arithmetic, rotates of A and control transfer, from their templates. -/
theorem test_decode_transfer_b :
    reads [0b00011000, 0x9A] (.jr 0x9A) ∧ reads [0b00111000, 0x9A] (.jrCc .c 0x9A) ∧
    reads [0b11001101, 0x34, 0x12] (.call 0x1234) ∧ reads [0b11001100, 0x34, 0x12] (.callCc .z 0x1234) ∧
    reads [0b11001001] .ret ∧ reads [0b11011000] (.retCc .c) ∧ reads [0b11011001] .reti ∧
    reads [0b11101111] (.rst 5) := by decide

/-- Words of the undefined bytes, from their templates. -/
theorem test_decode_undefined :
    reads [0b11010011] .illegalD3 ∧ reads [0b11011011] .illegalDB ∧ reads [0b11011101] .illegalDD ∧
    reads [0b11100011] .illegalE3 ∧ reads [0b11100100] .illegalE4 ∧ reads [0b11101011] .illegalEB ∧
    reads [0b11101100] .illegalEC ∧ reads [0b11101101] .illegalED ∧ reads [0b11110100] .illegalF4 ∧
    reads [0b11111100] .illegalFC ∧ reads [0b11111101] .illegalFD := by decide

/-- Words of the second page, from their templates. -/
theorem test_decode_second_page_a :
    reads [0xCB, 0b00000111] (.rlcR .a) ∧ reads [0xCB, 0b00000110] .rlcM ∧ reads [0xCB, 0b00001101] (.rrcR .l) ∧
    reads [0xCB, 0b00001110] .rrcM ∧ reads [0xCB, 0b00010100] (.rlR .h) ∧ reads [0xCB, 0b00010110] .rlM ∧
    reads [0xCB, 0b00011011] (.rrR .e) ∧ reads [0xCB, 0b00011110] .rrM ∧ reads [0xCB, 0b00100000] (.slaR .b) ∧
    reads [0xCB, 0b00100110] .slaM ∧ reads [0xCB, 0b00101001] (.sraR .c) ∧
    reads [0xCB, 0b00101110] .sraM := by decide

/-- Words of the second page, from their templates. -/
theorem test_decode_second_page_b :
    reads [0xCB, 0b00110010] (.swapR .d) ∧ reads [0xCB, 0b00110110] .swapM ∧ reads [0xCB, 0b00111111] (.srlR .a) ∧
    reads [0xCB, 0b00111110] .srlM ∧ reads [0xCB, 0b01010001] (.bitR 2 .c) ∧ reads [0xCB, 0b01101110] (.bitM 5) ∧
    reads [0xCB, 0b10110010] (.resR 6 .d) ∧ reads [0xCB, 0b10011110] (.resM 3) ∧
    reads [0xCB, 0b11111111] (.setR 7 .a) ∧ reads [0xCB, 0b11010110] (.setM 2) := by decide

/-- The row PREFIX_CB, which the byte after it turns into a second-page instruction (R135). -/
theorem test_decode_prefix :
    decodeFirstPage 0b11001011 0b00110111 0 = .prefixCB 0x37 ∧ reads [0b11001011, 0b00110111] (.swapR .a) := by decide

theorem test_decode_refuses_a_cut_instruction :
    decode [] = .error .noOpcode ∧ decode [0xCB] = .error .missingOperand ∧
    decode [0xC3, 0x34] = .error .missingOperand := by decide

/-- The host's numbering of a first-page and of a second-page word. -/
theorem test_decodeTableWord :
    decodeTableWord 8 0x76 = some .halt ∧ decodeTableWord 8 0xC3 = some (.jp 0) ∧
    decodeTableWord 24 0x1234C3 = some (.jp 0x1234) ∧ decodeTableWord 16 0x9A06 = some (.ldRN .b 0x9A) ∧
    decodeTableWord 16 0xCB37 = some (.swapR .a) ∧ decodeTableWord 16 0x37CB = some (.swapR .a) := by decide

/-! ### One Step per instruction -/

/-- The start state of 95_test_vectors.md. -/
def base : State := { State.reset with pc := 0xC000 }

/-- A byte put in memory. -/
def poke (s : State) (a : Nat) (v : Byte) : State := { s with mem := s.mem.write a v }

/-- Bytes put at PC. -/
def load (bytes : List Byte) (s : State) : State := { s with mem := s.mem.place s.pc bytes }

/-- One Step from a state with the bytes at PC ends at that PC, with that cost and the rest. -/
def after (bytes : List Byte) (s : State) (pc : Word) (cost : Nat) (rest : State → Bool) : Bool :=
  match step (load bytes s) with
  | .next t => decide (t.pc = pc) && decide (t.cycles = cost) && rest t
  | _ => false

theorem test_nop : after [0x00] base 0xC001 1 (fun t => t.af == 0x01B0) := by decide
theorem test_stop : after [0x10, 0x55] base 0xC002 1 (fun t => t.stopped == true) := by decide
theorem test_halt : after [0x76] base 0xC001 1 (fun t => t.halted == true) := by decide
theorem test_di :
    after [0xF3] { base with ime := true, eiPending := true } 0xC001 1
      (fun t => t.ime == false && t.eiPending == false) := by decide
theorem test_ei :
    after [0xFB] { base with ime := false } 0xC001 1
      (fun t => t.ime == false && t.eiPending == true) := by decide
theorem test_ldRR :
    after [0x41] { base with b := 0x11, c := 0x22 } 0xC001 1
      (fun t => t.b == 0x22 && t.c == 0x22) := by decide
theorem test_ldRN : after [0x16, 0x99] base 0xC002 2 (fun t => t.d == 0x99) := by decide
theorem test_ldRM :
    after [0x5E] { poke base 0xC100 0x77 with h := 0xC1, l := 0x00 } 0xC001 2
      (fun t => t.e == 0x77) := by decide
theorem test_ldMR :
    after [0x77] { base with h := 0xC1, l := 0x00, a := 0x42 } 0xC001 2
      (fun t => t.memRead 0xC100 == 0x42) := by decide
theorem test_ldMR_more :
    after [0x77] { base with h := 0x20, l := 0x00, a := 0x42 } 0xC001 2
      (fun t => t.memRead 0x2000 == 0) := by decide
theorem test_ldMN :
    after [0x36, 0xAB] { base with h := 0xC1, l := 0x00 } 0xC002 3
      (fun t => t.memRead 0xC100 == 0xAB) := by decide
theorem test_ldABc :
    after [0x0A] { poke base 0xC100 0x2F with b := 0xC1, c := 0x00 } 0xC001 2
      (fun t => t.a == 0x2F) := by decide
theorem test_ldADe :
    after [0x1A] { poke base 0xC100 0x2F with d := 0xC1, e := 0x00 } 0xC001 2
      (fun t => t.a == 0x2F) := by decide
theorem test_ldBcA :
    after [0x02] { base with b := 0xC1, c := 0x00, a := 0x3C } 0xC001 2
      (fun t => t.memRead 0xC100 == 0x3C) := by decide
theorem test_ldDeA :
    after [0x12] { base with d := 0xC1, e := 0x00, a := 0x3C } 0xC001 2
      (fun t => t.memRead 0xC100 == 0x3C) := by decide
theorem test_ldAAbs : after [0xFA, 0x00, 0xC1] (poke base 0xC100 0x9D) 0xC003 4 (fun t => t.a == 0x9D) := by decide
theorem test_ldAbsA :
    after [0xEA, 0x00, 0xC1] { base with a := 0x9D } 0xC003 4
      (fun t => t.memRead 0xC100 == 0x9D) := by decide
theorem test_ldhAImm : after [0xF0, 0x44] (poke base 0xFF44 0x90) 0xC002 3 (fun t => t.a == 0x90) := by decide
theorem test_ldhImmA :
    after [0xE0, 0x47] { base with a := 0xE4 } 0xC002 3
      (fun t => t.memRead 0xFF47 == 0xE4) := by decide
theorem test_ldhAC :
    after [0xF2] { poke base 0xFF80 0x66 with c := 0x80 } 0xC001 2
      (fun t => t.a == 0x66) := by decide
theorem test_ldhCA :
    after [0xE2] { base with c := 0x80, a := 0x55 } 0xC001 2
      (fun t => t.memRead 0xFF80 == 0x55) := by decide
theorem test_ldHlIncA :
    after [0x22] { base with h := 0xFF, l := 0xFF, a := 0x1F } 0xC001 2
      (fun t => t.memRead 0xFFFF == 0x1F && t.hl == 0) := by decide
theorem test_ldHlDecA :
    after [0x32] { base with h := 0xC1, l := 0x00, a := 0x05 } 0xC001 2
      (fun t => t.memRead 0xC100 == 0x05 && t.hl == 0xC0FF) := by decide
theorem test_ldAHlInc :
    after [0x2A] { poke base 0xC100 0x56 with h := 0xC1, l := 0x00 } 0xC001 2
      (fun t => t.a == 0x56 && t.hl == 0xC101) := by decide
theorem test_ldAHlDec :
    after [0x3A] { poke base 0 0x3C with h := 0x00, l := 0x00 } 0xC001 2
      (fun t => t.a == 0x3C && t.hl == 0xFFFF) := by decide
theorem test_ldRrNn : after [0x31, 0xFE, 0xDF] base 0xC003 3 (fun t => t.sp == 0xDFFE) := by decide
theorem test_ldAbsSp :
    after [0x08, 0x00, 0xC1] { base with sp := 0xFFF8 } 0xC003 5
      (fun t => t.memRead 0xC100 == 0xF8 && t.memRead 0xC101 == 0xFF) := by decide
theorem test_ldSpHl : after [0xF9] { base with h := 0x12, l := 0x34 } 0xC001 2 (fun t => t.sp == 0x1234) := by decide
theorem test_push :
    after [0xC5] { base with b := 0x12, c := 0x34 } 0xC001 4
      (fun t => t.sp == 0xFFFC && t.memRead 0xFFFD == 0x12 && t.memRead 0xFFFC == 0x34) := by decide
theorem test_push_more :
    after [0xE5] { base with sp := 0x0001, h := 0xAB, l := 0xCD } 0xC001 4
      (fun t => t.sp == 0xFFFF && t.memRead 0x0000 == 0 && t.memRead 0xFFFF == 0xCD) := by decide
theorem test_pop :
    after [0xF1] { poke (poke base 0xFFFC 0xFF) 0xFFFD 0x12 with sp := 0xFFFC } 0xC001 3
      (fun t => t.a == 0x12 && t.f == 0xF0 && t.sp == 0xFFFE) := by decide
theorem test_pop_more :
    after [0xD1] { poke (poke base 0xFFFF 0x34) 0 0x12 with sp := 0xFFFF } 0xC001 3
      (fun t => t.de == 0x1234 && t.sp == 0x0001) := by decide
theorem test_addR :
    after [0x80] { base with a := 0x3A, b := 0xC6, f := 0x00 } 0xC001 1
      (fun t => t.a == 0 && t.f == 0xB0) := by decide
theorem test_addR_more :
    after [0x80] { base with a := 0x0F, b := 0x01, f := 0xF0 } 0xC001 1
      (fun t => t.a == 0x10 && t.f == 0x20) := by decide
theorem test_addM :
    after [0x86] { poke base 0xC100 0x12 with a := 0x3C, h := 0xC1, l := 0x00, f := 0x00 } 0xC001 2
      (fun t => t.a == 0x4E && t.f == 0) := by decide
theorem test_addN :
    after [0xC6, 0xFF] { base with a := 0x3C, f := 0x00 } 0xC002 2
      (fun t => t.a == 0x3B && t.f == 0x30) := by decide
theorem test_adcR :
    after [0x8B] { base with a := 0xE1, e := 0x0F, f := 0x10 } 0xC001 1
      (fun t => t.a == 0xF1 && t.f == 0x20) := by decide
theorem test_adcM :
    after [0x8E] { poke base 0xC100 0x0F with a := 0xE1, h := 0xC1, l := 0x00, f := 0x10 } 0xC001 2
      (fun t => t.a == 0xF1 && t.f == 0x20) := by decide
theorem test_adcN :
    after [0xCE, 0xFF] { base with a := 0x00, f := 0x10 } 0xC002 2
      (fun t => t.a == 0 && t.f == 0xB0) := by decide
theorem test_subR :
    after [0x93] { base with a := 0x3E, e := 0x3E, f := 0x00 } 0xC001 1
      (fun t => t.a == 0 && t.f == 0xC0) := by decide
theorem test_subM :
    after [0x96] { poke base 0xC100 0x40 with a := 0x3E, h := 0xC1, l := 0x00, f := 0x00 } 0xC001 2
      (fun t => t.a == 0xFE && t.f == 0x50) := by decide
theorem test_subN :
    after [0xD6, 0x0F] { base with a := 0x3E, f := 0x00 } 0xC002 2
      (fun t => t.a == 0x2F && t.f == 0x60) := by decide
theorem test_sbcR :
    after [0x9C] { base with a := 0x3B, h := 0x2A, f := 0x10 } 0xC001 1
      (fun t => t.a == 0x10 && t.f == 0x40) := by decide
theorem test_sbcM :
    after [0x9E] { poke base 0xC100 0x2A with a := 0x3B, h := 0xC1, l := 0x00, f := 0x10 } 0xC001 2
      (fun t => t.a == 0x10 && t.f == 0x40) := by decide
theorem test_sbcN :
    after [0xDE, 0x00] { base with a := 0x00, f := 0x10 } 0xC002 2
      (fun t => t.a == 0xFF && t.f == 0x70) := by decide
theorem test_andR :
    after [0xA5] { base with a := 0x5A, l := 0x3F, f := 0x50 } 0xC001 1
      (fun t => t.a == 0x1A && t.f == 0x20) := by decide
theorem test_andM :
    after [0xA6] { poke base 0xC100 0x3F with a := 0x5A, h := 0xC1, l := 0x00, f := 0x50 } 0xC001 2
      (fun t => t.a == 0x1A && t.f == 0x20) := by decide
theorem test_andN :
    after [0xE6, 0x00] { base with a := 0x5A, f := 0x10 } 0xC002 2
      (fun t => t.a == 0 && t.f == 0xA0) := by decide
theorem test_xorR :
    after [0xAF] { base with a := 0xFF, f := 0xF0 } 0xC001 1
      (fun t => t.a == 0 && t.f == 0x80) := by decide
theorem test_xorM :
    after [0xAE] { poke base 0xC100 0x0F with a := 0xFF, h := 0xC1, l := 0x00, f := 0xF0 } 0xC001 2
      (fun t => t.a == 0xF0 && t.f == 0) := by decide
theorem test_xorN :
    after [0xEE, 0x0F] { base with a := 0xFF, f := 0xF0 } 0xC002 2
      (fun t => t.a == 0xF0 && t.f == 0) := by decide
theorem test_orR : after [0xB0] { base with a := 0x5A, b := 0x0F, f := 0xF0 } 0xC001 1 (fun t => t.a == 0x5F && t.f == 0) := by decide
theorem test_orM :
    after [0xB6] { poke base 0xC100 0x0F with a := 0x5A, h := 0xC1, l := 0x00, f := 0x00 } 0xC001 2
      (fun t => t.a == 0x5F && t.f == 0) := by decide
theorem test_orN :
    after [0xF6, 0x00] { base with a := 0x00, f := 0xF0 } 0xC002 2
      (fun t => t.a == 0 && t.f == 0x80) := by decide
theorem test_cpR :
    after [0xB8] { base with a := 0x3C, b := 0x2F, f := 0x00 } 0xC001 1
      (fun t => t.a == 0x3C && t.f == 0x60) := by decide
theorem test_cpM :
    after [0xBE] { poke base 0xC100 0x40 with a := 0x3C, h := 0xC1, l := 0x00, f := 0x00 } 0xC001 2
      (fun t => t.a == 0x3C && t.f == 0x50) := by decide
theorem test_cpN :
    after [0xFE, 0x3C] { base with a := 0x3C, f := 0x00 } 0xC002 2
      (fun t => t.a == 0x3C && t.f == 0xC0) := by decide
theorem test_incR :
    after [0x3C] { base with a := 0xFF, f := 0x10 } 0xC001 1
      (fun t => t.a == 0 && t.f == 0xB0) := by decide
theorem test_incM :
    after [0x34] { poke base 0xC100 0x50 with h := 0xC1, l := 0x00, f := 0xC0 } 0xC001 3
      (fun t => t.memRead 0xC100 == 0x51 && t.f == 0) := by decide
theorem test_decR :
    after [0x05] { base with b := 0x10, f := 0x00 } 0xC001 1
      (fun t => t.b == 0x0F && t.f == 0x60) := by decide
theorem test_decM :
    after [0x35] { poke base 0xC100 0x00 with h := 0xC1, l := 0x00, f := 0x00 } 0xC001 3
      (fun t => t.memRead 0xC100 == 0xFF && t.f == 0x60) := by decide
theorem test_daa :
    after [0x27] { base with a := 0x7D, f := 0x00 } 0xC001 1
      (fun t => t.a == 0x83 && t.f == 0) := by decide
theorem test_daa_more :
    after [0x27] { base with a := 0x00, f := 0x70 } 0xC001 1
      (fun t => t.a == 0x9A && t.f == 0x50) := by decide
theorem test_cpl :
    after [0x2F] { base with a := 0x35, f := 0x80 } 0xC001 1
      (fun t => t.a == 0xCA && t.f == 0xE0) := by decide
theorem test_scf : after [0x37] { base with f := 0xE0 } 0xC001 1 (fun t => t.f == 0x90) := by decide
theorem test_ccf : after [0x3F] { base with f := 0xF0 } 0xC001 1 (fun t => t.f == 0x80) := by decide
theorem test_addHlRr :
    after [0x39] { base with h := 0x00, l := 0x01, sp := 0xFFFF, f := 0x40 } 0xC001 2
      (fun t => t.hl == 0 && t.f == 0x30) := by decide
theorem test_incRr :
    after [0x33] { base with sp := 0xFFFF, f := 0x00 } 0xC001 2
      (fun t => t.sp == 0 && t.f == 0) := by decide
theorem test_decRr :
    after [0x0B] { base with b := 0x00, c := 0x00, f := 0x00 } 0xC001 2
      (fun t => t.bc == 0xFFFF && t.f == 0) := by decide
theorem test_addSpE :
    after [0xE8, 0xFE] { base with sp := 0xFFF8, f := 0x00 } 0xC002 4
      (fun t => t.sp == 0xFFF6 && t.f == 0x30) := by decide
theorem test_addSpE_more :
    after [0xE8, 0xFF] { base with sp := 0x0000, f := 0x00 } 0xC002 4
      (fun t => t.sp == 0xFFFF && t.f == 0) := by decide
theorem test_ldHlSpE :
    after [0xF8, 0x80] { base with sp := 0x0180, f := 0x00 } 0xC002 3
      (fun t => t.hl == 0x0100 && t.sp == 0x0180 && t.f == 0x10) := by decide
theorem test_rlca :
    after [0x07] { base with a := 0x00, f := 0xF0 } 0xC001 1
      (fun t => t.a == 0 && t.f == 0) := by decide
theorem test_rrca :
    after [0x0F] { base with a := 0x3B, f := 0x00 } 0xC001 1
      (fun t => t.a == 0x9D && t.f == 0x10) := by decide
theorem test_rla :
    after [0x17] { base with a := 0x95, f := 0x10 } 0xC001 1
      (fun t => t.a == 0x2B && t.f == 0x10) := by decide
theorem test_rra :
    after [0x1F] { base with a := 0x81, f := 0x00 } 0xC001 1
      (fun t => t.a == 0x40 && t.f == 0x10) := by decide
theorem test_jp : after [0xC3, 0x34, 0x12] base 0x1234 4 (fun _ => true) := by decide
theorem test_jpCc : after [0xC2, 0x00, 0x80] { base with f := 0x80 } 0xC003 3 (fun _ => true) := by decide
theorem test_jpCc_more : after [0xC2, 0x00, 0x80] { base with f := 0x00 } 0x8000 4 (fun _ => true) := by decide
theorem test_jpHl : after [0xE9] { base with h := 0x80, l := 0x00 } 0x8000 1 (fun _ => true) := by decide
theorem test_jr : after [0x18, 0x80] base 0xBF82 3 (fun _ => true) := by decide
theorem test_jr_more : after [0x18, 0x02] { base with pc := 0xFFFD } 0x0001 3 (fun _ => true) := by decide
theorem test_jrCc : after [0x20, 0x05] { base with f := 0x80 } 0xC002 2 (fun _ => true) := by decide
theorem test_jrCc_more : after [0x28, 0xFB] { base with f := 0x80 } 0xBFFD 3 (fun _ => true) := by decide
theorem test_call :
    after [0xCD, 0x34, 0x12] base 0x1234 6
      (fun t => t.sp == 0xFFFC && t.memRead 0xFFFD == 0xC0 && t.memRead 0xFFFC == 0x03) := by decide
theorem test_callCc : after [0xCC, 0x34, 0x12] { base with f := 0x00 } 0xC003 3 (fun t => t.sp == 0xFFFE) := by decide
theorem test_callCc_more :
    after [0xD4, 0x34, 0x12] { base with f := 0x00 } 0x1234 6
      (fun t => t.sp == 0xFFFC && t.memRead 0xFFFD == 0xC0 && t.memRead 0xFFFC == 0x03) := by decide
theorem test_ret :
    after [0xC9] { poke (poke base 0xFFFC 0x03) 0xFFFD 0xC0 with sp := 0xFFFC } 0xC003 4
      (fun t => t.sp == 0xFFFE) := by decide
theorem test_retCc :
    after [0xC8] { poke (poke base 0xFFFC 0x03) 0xFFFD 0xC0 with sp := 0xFFFC, f := 0x80 } 0xC003 5
      (fun t => t.sp == 0xFFFE) := by decide
theorem test_retCc_more :
    after [0xC8] { poke (poke base 0xFFFC 0x03) 0xFFFD 0xC0 with sp := 0xFFFC, f := 0x00 } 0xC001 2
      (fun t => t.sp == 0xFFFC) := by decide
theorem test_reti :
    after [0xD9] { poke (poke base 0xFFFC 0x03) 0xFFFD 0xC0 with sp := 0xFFFC, ime := false } 0xC003 4
      (fun t => t.sp == 0xFFFE && t.ime == true) := by decide
theorem test_rst :
    after [0xEF] base 0x0028 4
      (fun t => t.sp == 0xFFFC && t.memRead 0xFFFD == 0xC0 && t.memRead 0xFFFC == 0x01) := by decide
theorem test_rlcR :
    after [0xCB, 0x00] { base with b := 0x85, f := 0x00 } 0xC002 2
      (fun t => t.b == 0x0B && t.f == 0x10) := by decide
theorem test_rlcM :
    after [0xCB, 0x06] { poke base 0xC100 0x00 with h := 0xC1, l := 0x00, f := 0x10 } 0xC002 4
      (fun t => t.memRead 0xC100 == 0 && t.f == 0x80) := by decide
theorem test_rrcR :
    after [0xCB, 0x09] { base with c := 0x01, f := 0x00 } 0xC002 2
      (fun t => t.c == 0x80 && t.f == 0x10) := by decide
theorem test_rrcM :
    after [0xCB, 0x0E] { poke base 0xC100 0x01 with h := 0xC1, l := 0x00, f := 0x00 } 0xC002 4
      (fun t => t.memRead 0xC100 == 0x80 && t.f == 0x10) := by decide
theorem test_rlR :
    after [0xCB, 0x15] { base with l := 0x80, f := 0x00 } 0xC002 2
      (fun t => t.l == 0 && t.f == 0x90) := by decide
theorem test_rlM :
    after [0xCB, 0x16] { poke base 0xC100 0x80 with h := 0xC1, l := 0x00, f := 0x00 } 0xC002 4
      (fun t => t.memRead 0xC100 == 0x00 && t.f == 0x90) := by decide
theorem test_rrR :
    after [0xCB, 0x1F] { base with a := 0x01, f := 0x00 } 0xC002 2
      (fun t => t.a == 0 && t.f == 0x90) := by decide
theorem test_rrM :
    after [0xCB, 0x1E] { poke base 0xC100 0x01 with h := 0xC1, l := 0x00, f := 0x10 } 0xC002 4
      (fun t => t.memRead 0xC100 == 0x80 && t.f == 0x10) := by decide
theorem test_slaR :
    after [0xCB, 0x22] { base with d := 0x80, f := 0x00 } 0xC002 2
      (fun t => t.d == 0 && t.f == 0x90) := by decide
theorem test_slaM :
    after [0xCB, 0x26] { poke base 0xC100 0x80 with h := 0xC1, l := 0x00, f := 0x00 } 0xC002 4
      (fun t => t.memRead 0xC100 == 0x00 && t.f == 0x90) := by decide
theorem test_sraR :
    after [0xCB, 0x2F] { base with a := 0x8A, f := 0x00 } 0xC002 2
      (fun t => t.a == 0xC5 && t.f == 0) := by decide
theorem test_sraM :
    after [0xCB, 0x2E] { poke base 0xC100 0x8A with h := 0xC1, l := 0x00, f := 0x00 } 0xC002 4
      (fun t => t.memRead 0xC100 == 0xC5 && t.f == 0x00) := by decide
theorem test_swapR :
    after [0xCB, 0x37] { base with a := 0xF1, f := 0xF0 } 0xC002 2
      (fun t => t.a == 0x1F && t.f == 0) := by decide
theorem test_swapM :
    after [0xCB, 0x36] { poke base 0xC100 0x00 with h := 0xC1, l := 0x00, f := 0x70 } 0xC002 4
      (fun t => t.memRead 0xC100 == 0 && t.f == 0x80) := by decide
theorem test_srlR :
    after [0xCB, 0x3F] { base with a := 0x01, f := 0x00 } 0xC002 2
      (fun t => t.a == 0 && t.f == 0x90) := by decide
theorem test_srlM :
    after [0xCB, 0x3E] { poke base 0xC100 0x01 with h := 0xC1, l := 0x00, f := 0x00 } 0xC002 4
      (fun t => t.memRead 0xC100 == 0x00 && t.f == 0x90) := by decide
theorem test_bitR :
    after [0xCB, 0x65] { base with l := 0xEF, f := 0x40 } 0xC002 2
      (fun t => t.l == 0xEF && t.f == 0xA0) := by decide
theorem test_bitM :
    after [0xCB, 0x46] { poke base 0xC100 0xFE with h := 0xC1, l := 0x00, f := 0x00 } 0xC002 3
      (fun t => t.memRead 0xC100 == 0xFE && t.f == 0xA0) := by decide
theorem test_resR :
    after [0xCB, 0x87] { base with a := 0xFF, f := 0xF0 } 0xC002 2
      (fun t => t.a == 0xFE && t.f == 0xF0) := by decide
theorem test_resM :
    after [0xCB, 0x9E] { poke base 0xC100 0xFF with h := 0xC1, l := 0x00 } 0xC002 4
      (fun t => t.memRead 0xC100 == 0xF7) := by decide
theorem test_setR :
    after [0xCB, 0xD8] { base with b := 0xA5, f := 0x00 } 0xC002 2
      (fun t => t.b == 0xAD && t.f == 0) := by decide
theorem test_setM :
    after [0xCB, 0xFE] { poke base 0xC100 0x00 with h := 0xC1, l := 0x00 } 0xC002 4
      (fun t => t.memRead 0xC100 == 0x80) := by decide
theorem test_setM_more :
    after [0xCB, 0xC6] { base with h := 0x40, l := 0x00 } 0xC002 4
      (fun t => t.memRead 0x4000 == 0) := by decide
theorem test_undefined_rows :
    ∀ op ∈ undefinedBytes, after [op] base 0xC001 0
      (fun t => t.fault == some (.unknownOpcode op 0xC000) && t.tcount == 0) := by decide
theorem test_prefixCB : exec (.prefixCB 0x37) { base with a := 0xF1 } = exec (.swapR .a) { base with a := 0xF1 } := rfl

/-! ### Interrupts, devices, reset -/

/-- Vector I1. -/
theorem test_dispatch_lowest :
    after [0x00] { poke (poke base 0xFF0F 0x1F) 0xFFFF 0x1F with ime := true } 0x0040 5
      (fun t => t.sp == 0xFFFC && t.memRead 0xFFFD == 0xC0 && t.memRead 0xFF0F == 0x1E && !t.ime) := by decide

/-- Vector I6: the push overwrites IE and is discarded at 0x0000. -/
theorem test_dispatch_wrapping_stack :
    after [0x00] { poke (poke base 0xFF0F 0x04) 0xFFFF 0x04 with ime := true, sp := 0x0001 } 0x0050 5
      (fun t => t.sp == 0xFFFF && t.memRead 0xFF0F == 0 && t.memRead 0xFFFF == 0 && t.memRead 0 == 0) := by decide

/-- R370: a dispatch leaves `ei_pending` as it is (log 16). -/
theorem test_dispatch_keeps_ei_pending :
    after [0x00] { poke (poke base 0xFF0F 0x01) 0xFFFF 0x01 with ime := true, eiPending := true } 0x0040 5
      (fun t => !t.ime && t.eiPending) := by decide

/-- Vector I4: bits 7:5 of IF take no part. -/
theorem test_no_dispatch_of_high_bits :
    after [0x00] { poke (poke base 0xFF0F 0xE0) 0xFFFF 0xFF with ime := true } 0xC001 1
      (fun t => t.memRead 0xFF0F == 0xE0 && t.ime) := by decide

/-- Vector I7, Step 2. -/
theorem test_ei_delay :
    after [0x00] { poke (poke base 0xFF0F 0x01) 0xFFFF 0x01 with eiPending := true } 0xC001 1
      (fun t => t.ime && !t.eiPending && t.sp == 0xFFFE) := by decide

/-- Vector I10: a halted core that nothing wakes. -/
theorem test_halted : after [0x00] { poke base 0xFF0F 0x08 with halted := true } 0xC000 1 (fun t => t.halted) := by decide

/-- Vector T1, tick 16 and tick 17. -/
def beforeWrap : State :=
  { poke (poke (poke base 0xFF05 0xFF) 0xFF06 0xAB) 0xFF07 0x05 with tcount := 15, tprev := true }
theorem test_timer_wrap :
    (timerTick beforeWrap).memRead 0xFF05 = 0 ∧ (timerTick beforeWrap).tov = true ∧
    (timerTick beforeWrap).memRead 0xFF0F = 0 := by decide
theorem test_timer_reload :
    (timerTick (timerTick beforeWrap)).memRead 0xFF05 = 0xAB ∧ (timerTick (timerTick beforeWrap)).memRead 0xFF0F = 0x04 ∧
    (timerTick (timerTick beforeWrap)).tov = false := by decide

/-- Vector P1, ticks 80 and 65664. -/
def lastHBlank : State := { poke (poke base 0xFF41 0x00) 0xFF44 0x8F with pmode := .hBlank, ly := 143, pcnt := 203 }
theorem test_ppu_enters_pixel_transfer :
    (ppuStep { poke base 0xFF41 0x04 with pcnt := 79 }).pmode = .pixelTransfer ∧
    (ppuStep { poke base 0xFF41 0x04 with pcnt := 79 }).memRead 0xFF41 = 0x07 := by decide
theorem test_ppu_enters_vblank :
    (ppuStep lastHBlank).pmode = .vBlank ∧ (ppuStep lastHBlank).memRead 0xFF44 = 0x90 ∧
    (ppuStep lastHBlank).memRead 0xFF41 = 0x01 ∧ (ppuStep lastHBlank).memRead 0xFF0F = 0x01 ∧
    (ppuStep lastHBlank).events = [.repaint] := by decide

/-- Vectors G2, G7, G10 and G4: shades of a scanline. -/
def tileSetup : State := poke (poke (poke (poke base 0x8010 0x3C) 0x8011 0x7E) 0x9800 0x01) 0xFF47 0xE4
theorem test_shades_scrolled :
    (List.range 4).map (pixelShade (poke (poke tileSetup 0xFF40 0x11) 0xFF43 4) 0) = [3, 3, 2, 0] := by decide
theorem test_shades_wrapped :
    (List.range 8).map (pixelShade (poke (poke tileSetup 0xFF40 0x11) 0xFF43 252) 0) = [0, 0, 0, 0, 0, 2, 3, 3] := by decide
theorem test_shades_signed :
    pixelShade (poke (poke (poke tileSetup 0xFF40 0x01) 0x9800 0x80) 0x8801 0xFF) 0 0 = 2 := by decide
theorem test_shades_off : pixelShade (poke tileSetup 0xFF40 0x10) 0 3 = 0 := by decide

/-- 10_state.md R60 to R65. -/
theorem test_reset :
    State.reset.af = 0x01B0 ∧ State.reset.hl = 0x014D ∧ State.reset.pc = 0x0100 ∧ State.reset.sp = 0xFFFE ∧
    State.reset.mem = [] := by decide

/-- 20_memory.md R87. -/
theorem test_hostReset :
    hostReset Config.standard [0x3C, 0x00, 0x76] = .next { State.reset with mem := [(0, 0x3C), (2, 0x76)] } := rfl

/-- The word put where the Step fetches is the instruction it runs. -/
theorem test_withFetchWord :
    step (State.reset.withFetchWord 8 0x76) = .next (forwardTicks 1
      { State.reset.withFetchWord 8 0x76 with pc := 0x0101, halted := true, cycles := 1 }) := rfl

/-- The canonical form refuses an entry of the byte an unlisted address reads as, and a list out of order. -/
theorem test_memory_wf :
    Memory.wf [(1, 2), (3, 4)] = true ∧ Memory.wf [(1, 0)] = false ∧ Memory.wf [(3, 4), (1, 2)] = false ∧
    Memory.wf [(65536, 1)] = false := by decide

/-! ### Witnesses: states and operands that meet the hypotheses of the statements -/

/-- A state with stored bytes, in canonical form: the stack at 0xC200 and a byte at HL. -/
def busy : State := { poke (poke base 0xC100 0x3C) 0xC201 0x12 with h := 0xC1, l := 0x00, sp := 0xC200 }

/-- The premise of every statement that reads back a store, and the only one of TimerTickActions, IncAndDecMemory,
ShiftsOfMemory, ResAndSetMemory, Stores, PostIncrementAndDecrement, SixteenBitLoads and PushAndPop. -/
theorem test_witness_mem_wf : busy.mem.wf = true ∧ busy.mem ≠ [] := by decide

/-- Both cases of `Stored`, at the edges of the protected ranges. -/
theorem test_witness_Stored :
    ([0x0000, 0x7FFF, 0xFEA0, 0xFEFF].all fun x => writeProtected x) ∧
    ([0x8000, 0xFE9F, 0xFF00, 0xFFFF].all fun x => !writeProtected x) := by decide

theorem test_witness_DecodeOfEncode : (Instr.setR 7 .a).wellFormed = true ∧ (Instr.ldRrNn .sp 0xFFFF).wellFormed = true := by
  decide
theorem test_witness_EncodeOfDecode : decode [0xCB, 0xFF, 0x01] = .ok (.setR 7 .a, [0x01]) := by decide

theorem base_running : base.Running := ⟨by decide, by decide, by decide⟩

/-- A halted core that the Step wakes, with IME clear. -/
def waking : State := { poke (poke base 0xFF0F 0x04) 0xFFFF 0x04 with halted := true }

theorem test_witness_StepRunsTheDecodedInstruction :
    ∃ (s t : State) (i : Instr) (rest : List Byte), s.Running ∧ s.halted = true ∧
      decode [s.memRead s.pc, s.memRead (s.pc + 1), s.memRead (s.pc + 2)] = .ok (i, rest) ∧
      exec i { s with halted := false, pc := s.pc + BitVec.ofNat 16 (3 - rest.length) } = .next t :=
  ⟨load [0x3E, 0x9A] waking, _, .ldRN .a 0x9A, [0x00], ⟨by decide, by decide, by decide⟩, by decide, by decide, rfl⟩

/-- The lowest and the highest kind, the latter from a halted core. -/
theorem test_witness_StepDispatchesLowestInterrupt :
    (∃ s : State, s.stuck = false ∧ s.ime = true ∧ s.memRead 0xFF0F &&& s.memRead 0xFFFF &&& 0x1F = 0x01) ∧
    (∃ s : State, s.stuck = false ∧ s.ime = true ∧ s.halted = true ∧
      s.memRead 0xFF0F &&& s.memRead 0xFFFF &&& 0x1F = 0x10) :=
  ⟨⟨{ poke (poke base 0xFF0F 0xE1) 0xFFFF 0xFF with ime := true }, by decide, by decide, by decide⟩,
    ⟨{ poke (poke base 0xFF0F 0x10) 0xFFFF 0xF0 with ime := true, halted := true },
      by decide, by decide, by decide, by decide⟩⟩

theorem test_witness_HaltIdlesUntilAnEnabledInterrupt :
    (∃ s : State, s.stuck = false ∧ s.halted = true ∧ s.memRead 0xFF0F &&& s.memRead 0xFFFF &&& 0x1F = 0) ∧
    (∃ s : State, s.stuck = false ∧ s.halted = true ∧ s.memRead 0xFF0F &&& s.memRead 0xFFFF &&& 0x1F ≠ 0) :=
  ⟨⟨{ poke (poke base 0xFF0F 0xE0) 0xFFFF 0xFF with halted := true }, by decide, by decide, by decide⟩,
    ⟨waking, by decide, by decide, by decide⟩⟩

theorem test_witness_EiTakesEffectAfterOneInstruction :
    (∃ s t : State, s.Running ∧ stepWith Config.standard s = .next t ∧ t.fault = none ∧ s.eiPending = true) ∧
    (∃ s t : State, s.Running ∧ stepWith Config.standard s = .next t ∧ t.fault = none ∧ s.eiPending = false) :=
  ⟨⟨{ base with eiPending := true }, _, ⟨by decide, by decide, by decide⟩, rfl, by decide, by decide⟩,
    ⟨base, _, base_running, rfl, by decide, by decide⟩⟩

theorem test_witness_StopIsFinal : ∃ s : State, s.stopped = true := ⟨{ base with stopped := true }, rfl⟩

/-- The first and the last undefined byte. -/
theorem test_witness_UnknownOpcodeFaultsAndSticks :
    (∃ s : State, s.Running ∧ s.memRead s.pc = 0xD3 ∧ s.memRead s.pc ∈ undefinedBytes) ∧
    (∃ s : State, s.Running ∧ s.memRead s.pc = 0xFD ∧ s.memRead s.pc ∈ undefinedBytes) ∧ (∃ s : State, s.fault ≠ none) :=
  ⟨⟨load [0xD3] base, ⟨by decide, by decide, by decide⟩, by decide, by decide⟩,
    ⟨load [0xFD] waking, ⟨by decide, by decide, by decide⟩, by decide, by decide⟩,
    ⟨{ base with fault := some (.unknownOpcode 0xD3 0) }, by decide⟩⟩

theorem test_witness_OnlyUnknownOpcodeIsRaised :
    base.fault ≠ some .invalidAddress ∧ base.fault ≠ some .invalidArgument := by decide

/-- A dispatch, a halted Step and an instruction. -/
theorem test_witness_StepCosts :
    (∃ s t : State, s.stuck = false ∧ stepWith Config.standard s = .next t ∧ s.ime = true ∧ pendingEnabled s ≠ 0) ∧
    (∃ s t : State, s.stuck = false ∧ stepWith Config.standard s = .next t ∧ s.halted = true ∧ pendingEnabled s = 0) ∧
    (∃ s t : State, s.stuck = false ∧ stepWith Config.standard s = .next t ∧ s.halted = false ∧ pendingEnabled s = 0) :=
  ⟨⟨{ waking with ime := true }, _, by decide, rfl, by decide, by decide⟩,
    ⟨{ base with halted := true }, _, by decide, rfl, by decide, by decide⟩,
    ⟨base, _, by decide, rfl, by decide, by decide⟩⟩

theorem test_witness_WhoWritesWhat : ∃ t : State, exec (.ldMR .a) busy = .next t := ⟨_, rfl⟩

theorem reset_inv : State.reset.Inv := ⟨by decide, ⟨by decide, by decide⟩, by decide, by decide⟩

theorem test_witness_StepKeepsInvariant : ∃ s t : State, s.Inv ∧ step s = .next t := ⟨State.reset, _, reset_inv, rfl⟩

/-- The invariant in v-blank at its last tick, with an overflow latched. -/
theorem test_witness_invariant_boundary :
    ∃ s : State, s.Inv ∧ s.pmode = .vBlank ∧ s.ly = 153 ∧ s.tov = true :=
  ⟨{ busy with pmode := .vBlank, ly := 153, pcnt := 4559, tov := true },
    ⟨by decide, ⟨by decide, by decide⟩, by decide, by decide⟩, rfl, rfl, rfl⟩

theorem test_witness_ResetMeetsInvariant :
    ∃ (rom : List Byte) (s : State), Config.standard.WellFormed ∧ hostReset Config.standard rom = .next s :=
  ⟨[0x3C], _, by decide, rfl⟩

theorem test_witness_ProtectedBytesNeverChange :
    (∃ t, stepWith Config.standard base = .next t) ∧
    [(0x0000 : Word), 0x7FFF, 0xFEA0, 0xFEFF].all fun x => x.toNat ≤ 0x7FFF ∨ 0xFEA0 ≤ x.toNat ∧ x.toNat ≤ 0xFEFF :=
  ⟨⟨_, rfl⟩, by decide⟩

theorem test_witness_LyAndDivMirrorTheDevices :
    ∃ s t : State, s.mem.wf = true ∧ 0 < Config.standard.ticksPerCycle ∧ stepWith Config.standard s = .next t ∧
      t.cycles ≠ s.cycles :=
  ⟨base, _, by decide, by decide, rfl, by decide⟩

/-- The tick of the wrap and the tick of the reload. -/
theorem test_witness_TimerReloadsOneTickLate :
    (∃ s : State, s.mem.wf = true ∧ s.tov = false ∧ s.memRead 0xFF05 = 0xFF ∧ (timerTick s).tov = true) ∧
    (∃ u : State, u.mem.wf = true ∧ u.tov = true ∧ u.tprev = false) :=
  ⟨⟨beforeWrap, by decide, by decide, by decide, by decide⟩, ⟨timerTick beforeWrap, by decide, by decide, by decide⟩⟩

theorem test_witness_EnteringAMode :
    ∀ m : PpuMode, ∃ (number : Byte) (enable : Option Nat),
      (m, number, enable) ∈ [(PpuMode.hBlank, (0 : Byte), some 3), (.vBlank, 1, some 4), (.oamScan, 2, some 5),
        (.pixelTransfer, 3, none)] := by
  intro m
  cases m
  exacts [⟨0, some 3, by decide⟩, ⟨1, some 4, by decide⟩, ⟨2, some 5, by decide⟩, ⟨3, none, by decide⟩]

theorem test_witness_LyAndCoincidence : ∃ s : State, s.mem.wf = true ∧ s.ly = 153 :=
  ⟨{ busy with pmode := .vBlank, ly := 153, pcnt := 4559 }, by decide, rfl⟩

theorem test_witness_VBlankEntry :
    ∃ s : State, s.mem.wf = true ∧ s.pmode = .hBlank ∧ s.ly = 143 ∧ s.pcnt = 203 :=
  ⟨lastHBlank, by decide, by decide, by decide, by decide⟩

theorem test_witness_ScanlinePixels : ∃ y : Nat, y < 144 ∧ y = 143 := ⟨143, by decide, rfl⟩

theorem test_witness_FrameTakes70224Ticks :
    State.reset.pmode = .oamScan ∧ State.reset.ly = 0 ∧ State.reset.pcnt = 0 := by decide

/-- Protected and unprotected addresses at the edges of both ranges. -/
theorem test_witness_BusWrite :
    ([(0x8000 : Word), 0xFE9F, 0xFF00, 0xFFFF].all fun x =>
      ¬ (x.toNat ≤ 0x7FFF ∨ 0xFEA0 ≤ x.toNat ∧ x.toNat ≤ 0xFEFF)) ∧
    [(0x0000 : Word), 0x7FFF, 0xFEA0, 0xFEFF].all fun x =>
      x.toNat ≤ 0x7FFF ∨ 0xFEA0 ≤ x.toNat ∧ x.toNat ≤ 0xFEFF := by decide

/-- The longest image, and one byte more. -/
theorem test_witness_ResetPlacesTheRomImage :
    (∃ rom : List Byte, rom.length ≤ 32768 ∧ rom.length = 32768) ∧ (∃ rom : List Byte, 32768 < rom.length) :=
  ⟨⟨List.replicate 32768 0x76, List.length_replicate.le, List.length_replicate⟩,
    ⟨List.replicate 32769 0x76, by rw [List.length_replicate]; omega⟩⟩

theorem test_witness_RequestSetsItsBitOfIf :
    ∀ k : Irq, ∃ n, (k, n) ∈ [(Irq.vBlank, 0), (.lcdStat, 1), (.timer, 2), (.serial, 3), (.joypad, 4)] := by
  intro k
  cases k
  exacts [⟨0, by decide⟩, ⟨1, by decide⟩, ⟨2, by decide⟩, ⟨3, by decide⟩, ⟨4, by decide⟩]

/-- DAA after an addition and after a subtraction. -/
theorem test_witness_DecimalAdjust : (∃ s : State, s.fN = false) ∧ (∃ s : State, s.fN = true) :=
  ⟨⟨{ base with f := 0x00 }, by decide⟩, ⟨{ base with f := 0x40 }, by decide⟩⟩

/-- A condition that holds and one that does not, in a state with stored bytes. -/
theorem test_witness_CallsAndRestarts : busy.mem.wf = true ∧ busy.cond .z = true ∧ busy.cond .nz = false := by decide
theorem test_witness_Returns : busy.cond .c = true ∧ busy.cond .nc = false := by decide

end Sys2Proof.Tests
end

/-! SUPPORT. Proofs of the statements about the state (10_state.md): the values after reset, and which part of the machine
writes which part of the state. -/

namespace Sys2Proof.Machine

/-- Whether an instruction completes or records the fault of an undefined byte, it leaves the device half alone
(10_state.md R70). -/
theorem exec_devices {i : Instr} {s t : State} (h : exec i s = .next t) : t.devices = s.devices := by
  rcases exec_next i s with ⟨u, hu, heffect, -⟩ | ⟨op, -, hfault⟩
  · cases hu.symm.trans h
    exact heffect.devices
  · cases hfault.symm.trans h
    rfl

/-- `timerTick_record` with the counter's new value named and not computed. -/
theorem timerTick_frame (s : State) :
    timerTick s = { s with
      tcount := (timerTick s).tcount, tov := (timerTick s).tov, tprev := (timerTick s).tprev,
      mem := (timerTick s).mem } := by
  rw [timerTick_record]

/-- Settles O14: each part's frame is the law of that part; a host request is the bus write of IF. -/
theorem whoWritesWhat : Obligations.WhoWritesWhat := by
  unfold Obligations.WhoWritesWhat
  refine ⟨fun _ _ _ h => exec_devices h, fun k s => (CpuEffect.dispatchInterrupt k s).devices, fun s => ?timer,
    fun s => ?ppu, fun k s => ?host⟩
  case timer => exact ⟨timerTick_frame s, timerTick_bytes s⟩
  case ppu => exact ⟨ppuStep_record s, ppuStep_bytes s⟩
  case host => exact ⟨requestInterrupt_record k s, requestInterrupt_bytes k s⟩

/-- Settles O28: the parameters of 00_scope.md R7 are literals, so each group of fields is evaluated. -/
theorem resetValues : Obligations.ResetValues := by
  unfold Obligations.ResetValues
  refine ⟨?pairs, ?flags, ?control, ?timer, ?ppu, ?display⟩
  case pairs => decide
  case flags => decide
  case control => decide
  case timer => decide
  case ppu => decide
  case display => rfl

end Sys2Proof.Machine

/-! SUPPORT. Proofs of the statements about memory (20_memory.md): what a write does, and where Reset places the
image. -/

namespace Sys2Proof.Machine

/-! ### The write rule -/

/-- The protected ranges as 20_memory.md R85 writes them. -/
theorem writeProtected_iff (a : Word) :
    writeProtected a = true ↔ a.toNat ≤ 0x7FFF ∨ 0xFEA0 ≤ a.toNat ∧ a.toNat ≤ 0xFEFF := by
  simp [writeProtected]

theorem writeProtected_eq_false_iff (a : Word) :
    writeProtected a = false ↔ ¬ (a.toNat ≤ 0x7FFF ∨ 0xFEA0 ≤ a.toNat ∧ a.toNat ≤ 0xFEFF) := by
  rw [← writeProtected_iff, Bool.not_eq_true]

/-- Settles O27: the ranges of the statement are `writeProtected`, and each clause is a law of the bus. -/
theorem busWrite : Obligations.BusWrite := by
  unfold Obligations.BusWrite
  refine fun s x v hw => ⟨fun hp => ?discarded, fun hp => ?stored, .memWrite s x v, memWrite_eq s x v,
    memWrite_wf hw x v⟩
  case discarded => exact memWrite_protected v ((writeProtected_iff x).mpr hp)
  case stored => exact memRead_memWrite_same hw v ((writeProtected_eq_false_iff x).mpr hp)

/-! ### Reset with a ROM image -/

theorem hostReset_of_le (cfg : Config) {rom : List Byte} (h : rom.length ≤ romCapacity) :
    hostReset cfg rom = .next { State.powerOn cfg with mem := Memory.place [] 0x0000 rom } := if_pos h

theorem hostReset_of_lt (cfg : Config) {rom : List Byte} (h : romCapacity < rom.length) :
    hostReset cfg rom = .refused (.romImageTooLong rom.length) := if_neg (by omega)

/-- In a memory that held no byte, an image placed at the bottom reads as itself and 0x00 past its end
(10_state.md R62). -/
theorem Memory.read_place_empty (bytes : List Byte) (hl : bytes.length ≤ 65536) (x : Nat) :
    (Memory.place [] 0x0000 bytes).read x = bytes.getD x 0x00 := by
  rw [Memory.read_place bytes rfl 0x0000 (by simpa using hl)]
  by_cases hx : x < bytes.length
  · simp [hx]
  · simp [hx, Memory.read, Memory.unlisted]

/-- Settles O29: an image that fits is placed in a memory that held no byte, and it ends far below the top of memory. -/
theorem resetPlacesTheRomImage : Obligations.ResetPlacesTheRomImage := by
  unfold Obligations.ResetPlacesTheRomImage
  refine fun cfg rom => ⟨fun hfits => ?placed, fun hlong => ?refused⟩
  case placed =>
    exact ⟨_, hostReset_of_le cfg hfits, rfl, fun x => Memory.read_place_empty rom (by omega) x.toNat⟩
  case refused => exact hostReset_of_lt cfg hlong

end Sys2Proof.Machine

/-! SUPPORT. Proofs of the statements about the encoding (30_encoding.md): the decoder reads every encoding back, and every
instruction it reads has the bytes it was read from as its encoding. -/

namespace Sys2Proof

/-! ### The fields of an opcode byte (R121) -/

@[simp] theorem opGroup_append (g : BitVec 2) (y z : BitVec 3) : opGroup (g ++ y ++ z) = g := by
  revert g y z; decide
@[simp] theorem opY_append (g : BitVec 2) (y z : BitVec 3) : opY (g ++ y ++ z) = y := by
  revert g y z; decide
@[simp] theorem opZ_append (g : BitVec 2) (y z : BitVec 3) : opZ (g ++ y ++ z) = z := by
  revert g y z; decide

/-- Code 6 names the byte at HL, no register (R124). -/
@[simp] theorem R8.ofCode_six : R8.ofCode 6#3 = none := rfl

/-! ### The second page (R133, R135) -/

/-- The grid is defined on all 256 bytes and loses no bit of them (R133); each byte is evaluated. -/
theorem encode_decodeCb (second : Byte) : encode (decodeCb second).toInstr = [0xCB, second] := by
  revert second
  decide +kernel

theorem CbOp.toInstr_wellFormed (op : CbOp) : op.toInstr.wellFormed = true := by
  unfold CbOp.toInstr
  split <;> rfl

/-- The prefix and its second byte are the encoding of the second-page instruction (R135). -/
theorem encode_resolvePrefix (i : Instr) : encode (resolvePrefix i) = encode i := by
  unfold resolvePrefix
  split
  · exact encode_decodeCb _
  · rfl

theorem resolvePrefix_wellFormed (i : Instr) : (resolvePrefix i).wellFormed = true := by
  unfold resolvePrefix
  split
  · exact (decodeCb _).toInstr_wellFormed
  · next hnot =>
    unfold Instr.wellFormed
    split
    · exact absurd rfl (hnot _)
    · rfl

/-! ### The first page (R132) -/

theorem opLength_bounds (op : Byte) : 1 ≤ opLength op ∧ opLength op ≤ 3 := by
  unfold opLength
  split <;> decide

/-- The operand bytes stand after the first byte as they are, and the first byte does not depend on them (R120). -/
theorem encode_decodeFirstPage_operands (op n1 n2 : Byte) :
    encode (decodeFirstPage op n1 n2) =
      (encode (decodeFirstPage op 0 0)).headD 0 ::
        [n1, n2].take ((encode (decodeFirstPage op 0 0)).length - 1) := by
  unfold decodeFirstPage
  split
  · unfold decodeGroup0
    rcases R8.ofCode (opY op) with _ | r
    all_goals split <;> (try split) <;> simp [encode]
  · unfold decodeGroup1
    split <;> rfl
  · unfold decodeGroup2 aluR aluM
    split <;> split <;> rfl
  · unfold decodeGroup3 aluN
    split <;> (try split) <;> simp [encode]

/-- With the operands fixed, what is left to evaluate is each of the 256 first bytes (R138). -/
theorem encode_decodeFirstPage_zero (op : Byte) :
    (encode (decodeFirstPage op 0 0)).headD 0 = op ∧ (encode (decodeFirstPage op 0 0)).length = opLength op := by
  revert op
  decide +kernel

theorem encode_decodeBytes (op n1 n2 : Byte) :
    encode (decodeBytes op n1 n2) = op :: [n1, n2].take (opLength op - 1) := by
  obtain ⟨hhead, hlength⟩ := encode_decodeFirstPage_zero op
  rw [decodeBytes, encode_resolvePrefix, encode_decodeFirstPage_operands, hhead, hlength]

/-! ### The decoder -/

theorem decode_eq_ok_iff {bytes rest : List Byte} {i : Instr} :
    decode bytes = .ok (i, rest) ↔ ∃ op tail, bytes = op :: tail ∧ opLength op - 1 ≤ tail.length ∧
      i = decodeBytes op (tail.getD 0 0) (tail.getD 1 0) ∧ rest = tail.drop (opLength op - 1) := by
  rcases bytes with _ | ⟨op, tail⟩
  · simp [decode]
  · by_cases h : opLength op ≤ tail.length + 1
    · simp [decode, h, eq_comm]
    · simp [decode, h]

/-- The operand bytes that `decode` looks at and the bytes it leaves make up the bytes after the opcode. -/
theorem take_getD_append_drop {k : Nat} {tail : List Byte} (hk : k ≤ 2) (hlength : k ≤ tail.length) :
    [tail.getD 0 0, tail.getD 1 0].take k ++ tail.drop k = tail := by
  match k, tail, hk, hlength with
  | 0, _, _, _ => rfl
  | 1, _ :: _, _, _ => rfl
  | 2, _ :: _ :: _, _, _ => rfl

/-- Settles O2: the bytes the decoder looked at are the instruction's encoding (`encode_decodeBytes`). -/
theorem encodeOfDecode : Obligations.EncodeOfDecode := by
  unfold Obligations.EncodeOfDecode
  intro bytes rest i h
  obtain ⟨op, tail, rfl, hlength, rfl, rfl⟩ := decode_eq_ok_iff.mp h
  have htwo : opLength op - 1 ≤ 2 := by have := opLength_bounds op; omega
  refine ⟨?bytes, resolvePrefix_wellFormed _⟩
  case bytes => rw [encode_decodeBytes, List.cons_append, take_getD_append_drop htwo hlength]

/-! ### Undefined bytes (R134) -/

theorem Instr.encode_of_undefinedOpcode {i : Instr} {op : Byte} (h : i.undefinedOpcode = some op) :
    encode i = [op] ∧ op ∈ undefinedBytes := by
  unfold Instr.undefinedOpcode at h
  split at h <;> cases h <;> exact ⟨rfl, by decide⟩

theorem undefinedOpcode_decodeBytes_of_mem {op : Byte} (h : op ∈ undefinedBytes) (n1 n2 : Byte) :
    (decodeBytes op n1 n2).undefinedOpcode = some op := by
  simp only [undefinedBytes, List.mem_cons, List.not_mem_nil, or_false] at h
  rcases h with rfl | rfl | rfl | rfl | rfl | rfl | rfl | rfl | rfl | rfl | rfl <;> rfl

/-- An undefined row is its byte's row (`Instr.encode_of_undefinedOpcode`), so another byte's row is none. -/
theorem undefinedOpcode_decodeBytes (op n1 n2 : Byte) :
    (decodeBytes op n1 n2).undefinedOpcode = if op ∈ undefinedBytes then some op else none := by
  split
  · next hmem => exact undefinedOpcode_decodeBytes_of_mem hmem n1 n2
  · next hmem =>
    rw [Option.eq_none_iff_forall_ne_some]
    intro b hb
    obtain ⟨hencode, hundefined⟩ := Instr.encode_of_undefinedOpcode hb
    rw [encode_decodeBytes, List.cons.injEq] at hencode
    obtain ⟨rfl, -⟩ := hencode
    exact hmem hundefined

/-- Settles O3: an instruction has at most three bytes, and which rows are undefined is told by the first. -/
theorem decoderTotalWithElevenUndefined : Obligations.DecoderTotalWithElevenUndefined := by
  unfold Obligations.DecoderTotalWithElevenUndefined
  intro op n1 n2 rest
  refine ⟨_, _, decode_eq_ok_iff.mpr ⟨op, n1 :: n2 :: rest, rfl, ?enough, rfl, rfl⟩,
    undefinedOpcode_decodeBytes op n1 n2⟩
  case enough =>
    have := opLength_bounds op
    simp only [List.length_cons]
    omega

end Sys2Proof

namespace Sys2Proof.Machine

/-! ### Reading an encoding back -/

/-- Reading an instruction with a 16-bit operand (R128). -/
theorem Reads.word {op : Byte} {f : Word → Instr} (hl : opLength op = 3)
    (h : ∀ n1 n2, decodeBytes op n1 n2 = f (wordOf n2 n1)) (w : Word) : Reads [op, loByte w, hiByte w] (f w) :=
  .three hl ((h _ _).trans (congrArg f (wordOf_hiByte_loByte w)))

/-- By format (R120): the opcode byte alone, with one operand byte, with a 16-bit operand, and the byte after the prefix.
Once its selectors are known an opcode byte is a literal and the decoder is evaluated; a bit index or RST index is read
by its field. -/
theorem reads_encode {i : Instr} (h : i.wellFormed = true) : Reads (encode i) i := by
  cases i with
  | prefixCB second => cases h
  | nop | halt | di | ei | ldABc | ldADe | ldBcA | ldDeA | ldhAC | ldhCA | ldHlIncA | ldHlDecA | ldAHlInc | ldAHlDec
  | ldSpHl | addM | adcM | subM | sbcM | andM | xorM | orM | cpM | incM | decM | daa | cpl | scf | ccf
  | rlca | rrca | rla | rra | jpHl | ret | reti
  | illegalD3 | illegalDB | illegalDD | illegalE3 | illegalE4 | illegalEB | illegalEC | illegalED | illegalF4
  | illegalFC | illegalFD => exact .one rfl fun _ _ => rfl
  | ldRR dst src => cases dst <;> cases src <;> exact .one rfl fun _ _ => rfl
  | ldRM k | ldMR k | addR k | adcR k | subR k | sbcR k | andR k | xorR k | orR k | cpR k | incR k | decR k
  | push k | pop k | addHlRr k | incRr k | decRr k | retCc k => cases k <;> exact .one rfl fun _ _ => rfl
  | rst n =>
    refine .one (Laws.FirstByteTellsLength.rst n).symm fun _ _ => ?_
    simp [decodeBytes, decodeFirstPage, decodeGroup3, resolvePrefix]
  | stop n | ldMN n | ldhAImm n | ldhImmA n | addN n | adcN n | subN n | sbcN n | andN n | xorN n | orN n | cpN n
  | addSpE n | ldHlSpE n | jr n => exact .two rfl fun _ => rfl
  | ldRN k n | jrCc k n => cases k <;> exact .two rfl fun _ => rfl
  | ldAAbs w | ldAbsA w | ldAbsSp w | jp w | call w => exact .word rfl (fun _ _ => rfl) w
  | ldRrNn k w | jpCc k w | callCc k w => cases k <;> exact .word rfl (fun _ _ => rfl) w
  | rlcR r | rrcR r | rlR r | rrR r | slaR r | sraR r | swapR r | srlR r => cases r <;> exact .cb rfl
  | rlcM | rrcM | rlM | rrM | slaM | sraM | swapM | srlM => exact .cb rfl
  | bitR | resR | setR | bitM | resM | setM => exact .cb (by simp [decodeCb, CbOp.toInstr])

/-- Settles O1: each encoding is read by its format. -/
theorem decodeOfEncode : Obligations.DecodeOfEncode := by
  unfold Obligations.DecodeOfEncode
  exact fun _ rest h => reads_encode h rest

/-- Settles O4: each word is the encoding of its instruction, so it is read back. -/
theorem sampleWordsDecode : Obligations.SampleWordsDecode := by
  unfold Obligations.SampleWordsDecode
  exact ⟨reads_encode (i := .ldRR .b .c) rfl, reads_encode (i := .swapR .a) rfl, reads_encode (i := .bitR 7 .h) rfl,
    reads_encode (i := .setR 3 .b) rfl, reads_encode (i := .resM 0) rfl, reads_encode (i := .jp 0x0150) rfl,
    reads_encode (i := .callCc .c 0x2000) rfl, reads_encode (i := .jrCc .nz 0x05) rfl, reads_encode (i := .rst 5) rfl,
    reads_encode (i := .ldRrNn .hl 0x3A5B) rfl, reads_encode (i := .halt) rfl, reads_encode (i := .illegalD3) rfl⟩

end Sys2Proof.Machine

/-! SUPPORT. Proofs of the statements about 8-bit arithmetic and logic (40_arithmetic.md). Each instruction
is read from its own encoding and writes one result of the ALU with its flags; what such a write does is a law. -/

namespace Sys2Proof.Machine

/-- An instruction is read from its own encoding, so what is left to show is about the state its meaning answers. -/
theorem Completes.ofEncode {i : Instr} {cost : Nat} {s t : State} {post : State → Prop} (hi : i.wellFormed = true)
    (he : exec i s = done cost t) (hc : t.cycles = s.cycles) (hp : post (t.spend cost)) :
    Completes i (encode i) cost s post := .ofDone (reads_encode hi) he hc hp

/-! ### Flags with a fixed value, and Z of a result -/

theorem flag_set : true = true ↔ True := iff_of_true rfl trivial

theorem flag_clear : false = true ↔ False := iff_of_false Bool.false_ne_true id

/-- The flags of a result whose Z flag is computed from its value. -/
theorem FlagsAre.setAluOfValue (s : State) {r : AluOut} {cost : Nat} {pn ph pc : Prop} (hz : r.z = (r.value == 0))
    (hn : r.n = true ↔ pn) (hh : r.h = true ↔ ph) (hc : r.c = true ↔ pc) :
    FlagsAre ((s.setAluFlags r).spend cost) (r.value = 0) pn ph pc :=
  .setAlu _ _ (by rw [hz, beq_iff_eq]) hn hh hc

/-! ### Addition, subtraction and comparison -/

/-- Settles O31: all six forms write `add8`, with carry-in 0 or C. -/
theorem addAndAdc : Obligations.AddAndAdc := by
  unfold Obligations.AddAndAdc
  refine fun s r n8 => ⟨?addR, ?addM, ?addN, ?adcR, ?adcM, ?adcN⟩
  case addR => exact .ofEncode rfl rfl rfl (.setAcc s (s.reg r) false rfl 1)
  case addM => exact .ofEncode rfl rfl rfl (.setAcc s s.atHl false rfl 2)
  case addN => exact .ofEncode rfl rfl rfl (.setAcc s n8 false rfl 2)
  case adcR => exact .ofEncode rfl rfl rfl (.setAcc s (s.reg r) s.fC rfl 1)
  case adcM => exact .ofEncode rfl rfl rfl (.setAcc s s.atHl s.fC rfl 2)
  case adcN => exact .ofEncode rfl rfl rfl (.setAcc s n8 s.fC rfl 2)

/-- Settles O32: all six forms write `sub8`, with borrow-in 0 or C. -/
theorem subAndSbc : Obligations.SubAndSbc := by
  unfold Obligations.SubAndSbc
  refine fun s r n8 => ⟨?subR, ?subM, ?subN, ?sbcR, ?sbcM, ?sbcN⟩
  case subR => exact .ofEncode rfl rfl rfl (.setAcc s (s.reg r) false rfl 1)
  case subM => exact .ofEncode rfl rfl rfl (.setAcc s s.atHl false rfl 2)
  case subN => exact .ofEncode rfl rfl rfl (.setAcc s n8 false rfl 2)
  case sbcR => exact .ofEncode rfl rfl rfl (.setAcc s (s.reg r) s.fC rfl 1)
  case sbcM => exact .ofEncode rfl rfl rfl (.setAcc s s.atHl s.fC rfl 2)
  case sbcN => exact .ofEncode rfl rfl rfl (.setAcc s n8 s.fC rfl 2)

/-- Settles O33: all three forms write the flags of `sub8` and no result. -/
theorem compareWritesOnlyFlags : Obligations.CompareWritesOnlyFlags := by
  unfold Obligations.CompareWritesOnlyFlags
  refine fun s r n8 => ⟨?cpR, ?cpM, ?cpN⟩
  case cpR => exact .ofEncode rfl rfl rfl ⟨.setAluFlags s s (s.reg r) false rfl 1, .setAluFlags ..⟩
  case cpM => exact .ofEncode rfl rfl rfl ⟨.setAluFlags s s s.atHl false rfl 2, .setAluFlags ..⟩
  case cpN => exact .ofEncode rfl rfl rfl ⟨.setAluFlags s s n8 false rfl 2, .setAluFlags ..⟩

/-! ### Bitwise logic -/

/-- Writing `and8` to A (40_arithmetic.md R176). -/
theorem LogicInA.setAnd (s : State) (v : Byte) (cost : Nat) :
    LogicInA (s.a &&& v) True s ((s.setAcc (and8 s.a v)).spend cost) :=
  ⟨rfl, .setAluOfValue _ rfl flag_clear flag_set flag_clear, .setAcc ..⟩

/-- Writing `xor8` to A (R179). -/
theorem LogicInA.setXor (s : State) (v : Byte) (cost : Nat) :
    LogicInA (s.a ^^^ v) False s ((s.setAcc (xor8 s.a v)).spend cost) :=
  ⟨rfl, .setAluOfValue _ rfl flag_clear flag_clear flag_clear, .setAcc ..⟩

/-- Writing `or8` to A (R182). -/
theorem LogicInA.setOr (s : State) (v : Byte) (cost : Nat) :
    LogicInA (s.a ||| v) False s ((s.setAcc (or8 s.a v)).spend cost) :=
  ⟨rfl, .setAluOfValue _ rfl flag_clear flag_clear flag_clear, .setAcc ..⟩

/-- Settles O34: one lemma for each operation, whatever the form of its operand. -/
theorem andXorOr : Obligations.AndXorOr := by
  unfold Obligations.AndXorOr
  refine fun s r n8 => ⟨?andR, ?andM, ?andN, ?xorR, ?xorM, ?xorN, ?orR, ?orM, ?orN⟩
  case andR => exact .ofEncode rfl rfl rfl (.setAnd s (s.reg r) 1)
  case andM => exact .ofEncode rfl rfl rfl (.setAnd s s.atHl 2)
  case andN => exact .ofEncode rfl rfl rfl (.setAnd s n8 2)
  case xorR => exact .ofEncode rfl rfl rfl (.setXor s (s.reg r) 1)
  case xorM => exact .ofEncode rfl rfl rfl (.setXor s s.atHl 2)
  case xorN => exact .ofEncode rfl rfl rfl (.setXor s n8 2)
  case orR => exact .ofEncode rfl rfl rfl (.setOr s (s.reg r) 1)
  case orM => exact .ofEncode rfl rfl rfl (.setOr s s.atHl 2)
  case orN => exact .ofEncode rfl rfl rfl (.setOr s n8 2)

/-! ### Increment and decrement -/

theorem inc8_toNat (v : Byte) (c : Bool) : (inc8 v c).value.toNat = (v.toNat + 1) % 256 := BitVec.toNat_add v 1

/-- Settles O35: the result is read back from the register it was written to, and Z is computed from it. -/
theorem incAndDecRegister : Obligations.IncAndDecRegister := by
  unfold Obligations.IncAndDecRegister
  refine fun s r => ⟨.ofEncode rfl rfl (by simp) ?inc, .ofEncode rfl rfl (by simp) ?dec⟩
  all_goals simp only [reg_setRegFlags]
  case inc =>
    exact ⟨inc8_toNat .., .setAluOfValue _ rfl flag_clear (inc8_half ..) .rfl, .setRegFlags ..⟩
  case dec =>
    exact ⟨dec8_toInt .., .setAluOfValue _ rfl flag_set (dec8_half ..) .rfl, .setRegFlags ..⟩

/-- Writing flags after the byte at HL leaves it stored. -/
theorem Stored.setAtHlFlags {s : State} (hw : s.mem.wf = true) (v : Byte) (out : AluOut) (cost : Nat) :
    Stored s.hl v s (((s.setAtHl v).setAluFlags out).spend cost) :=
  .ofMem (.memWrite hw _ _) rfl

/-- Settles O36: the flags are those of the value read, so they do not depend on whether the byte is stored. -/
theorem incAndDecMemory : Obligations.IncAndDecMemory := by
  unfold Obligations.IncAndDecMemory
  refine fun s hw => ⟨.ofEncode rfl rfl ?incCycles ⟨?incStored, ?incFlags, .memWriteFlags ..⟩,
    .ofEncode rfl rfl ?decCycles ⟨?decStored, ?decFlags, .memWriteFlags ..⟩⟩
  case incCycles | decCycles => exact State.memWrite_cycles ..
  case incStored | decStored => exact .setAtHlFlags hw ..
  case incFlags => exact .setAlu _ _ (inc8_zero ..) flag_clear (inc8_half ..) .rfl
  case decFlags => exact .setAlu _ _ (dec8_zero ..) flag_set (dec8_half ..) .rfl

/-! ### Decimal adjust -/

/-- Settles O37: N chooses the branch of the rule, and each branch is a law of `daa8`. -/
theorem decimalAdjust : Obligations.DecimalAdjust := by
  unfold Obligations.DecimalAdjust
  refine fun s => .ofEncode rfl rfl rfl ⟨fun hn => ?add, fun hn => ?sub, .setAcc ..⟩
  all_goals rw [hn]
  case add =>
    obtain ⟨hvalue, hcarry⟩ := daa8_add s.a s.fH s.fC
    exact ⟨hvalue, .setAluOfValue _ rfl flag_clear flag_clear hcarry⟩
  case sub =>
    obtain ⟨hvalue, hcarry⟩ := daa8_sub s.a s.fH s.fC
    exact ⟨hvalue, .setAluOfValue _ rfl flag_set flag_clear hcarry⟩

/-! ### Complement and carry -/

/-- Settles O38: a flag that an instruction leaves unchanged is given its old value; CPL writes A and flags as one ALU
result does. -/
theorem cplScfCcf : Obligations.CplScfCcf := by
  unfold Obligations.CplScfCcf
  refine fun s => ⟨?cpl, ?scf, ?ccf⟩
  case cpl =>
    exact .ofEncode rfl rfl rfl
      ⟨rfl, .setFlags _ _ _ _ _ .rfl flag_set flag_set .rfl, .setAcc s ⟨s.a ^^^ 0xFF, s.fZ, true, true, s.fC⟩ 1⟩
  case scf =>
    exact .ofEncode rfl rfl rfl ⟨.setFlags _ _ _ _ _ .rfl flag_clear flag_clear flag_set, .setFlags ..⟩
  case ccf =>
    exact .ofEncode rfl rfl rfl
      ⟨.setFlags _ _ _ _ _ .rfl flag_clear flag_clear (Bool.not_eq_true' _).to_iff, .setFlags ..⟩

end Sys2Proof.Machine

/-! SUPPORT. Proofs of the statements about rotates, shifts and bit operations (41_bit_manipulation.md): each form is one
shared operation of the model, and a lemma says for each what it completes with. -/

namespace Sys2Proof.Machine

/-! ### Rotates of A -/

/-- A rotate of A has the result and the carry-out of its second-page counterpart, and Z clear (R211 to R214). -/
theorem Completes.rotateA {i : Instr} {s : State} (op : ShiftOp) (hi : i.wellFormed = true)
    (he : exec i s = done 1 (s.setAcc (rotateAOut op s.a s.fC))) :
    Completes i (encode i) 1 s fun t =>
      t.a.toNat = op.result s.a.toNat s.fC.toNat ∧ FlagsAre t False False False (op.carryOut s.a.toNat) ∧
      Frame [.a] [] s t :=
  .ofEncode hi he rfl
    ⟨shift8_result op s.a s.fC, .setAlu _ _ flag_clear flag_clear flag_clear (shift8_carry op s.a s.fC), .setAcc ..⟩

/-- Settles O39: each of the four is a rotate of A by its operation. -/
theorem rotatesOfA : Obligations.RotatesOfA := by
  unfold Obligations.RotatesOfA
  exact fun s => ⟨.rotateA .rlc rfl rfl, .rotateA .rrc rfl rfl, .rotateA .rl rfl rfl, .rotateA .rr rfl rfl⟩

/-! ### Second-page rotates and shifts (R210) -/

/-- The common register form (41_bit_manipulation.md section 3). -/
theorem Completes.shiftReg {i : Instr} {s : State} (op : ShiftOp) (r : R8) (hi : i.wellFormed = true)
    (he : exec i s = shiftReg op r s) : Completes i (encode i) 2 s (ShiftedReg op r s) :=
  .ofEncode hi he (State.setReg_cycles ..) (.ofShiftReg op r s 2)

/-- The common `(HL)` form. -/
theorem Completes.shiftMem {i : Instr} {s : State} (op : ShiftOp) (hw : s.mem.wf = true) (hi : i.wellFormed = true)
    (he : exec i s = shiftMem op s) : Completes i (encode i) 4 s (ShiftedMem op s) :=
  .ofEncode hi he (State.memWrite_cycles ..) (.ofShiftMem op hw 4)

/-- Settles O40: all eight have the common register form. -/
theorem shiftsOfRegister : Obligations.ShiftsOfRegister := by
  unfold Obligations.ShiftsOfRegister
  exact fun s r => ⟨.shiftReg .rlc r rfl rfl, .shiftReg .rrc r rfl rfl, .shiftReg .rl r rfl rfl, .shiftReg .rr r rfl rfl,
    .shiftReg .sla r rfl rfl, .shiftReg .sra r rfl rfl, .shiftReg .swap r rfl rfl, .shiftReg .srl r rfl rfl⟩

/-- Settles O41: all eight have the common `(HL)` form. -/
theorem shiftsOfMemory : Obligations.ShiftsOfMemory := by
  unfold Obligations.ShiftsOfMemory
  exact fun s hw => ⟨.shiftMem .rlc hw rfl rfl, .shiftMem .rrc hw rfl rfl, .shiftMem .rl hw rfl rfl,
    .shiftMem .rr hw rfl rfl, .shiftMem .sla hw rfl rfl, .shiftMem .sra hw rfl rfl, .shiftMem .swap hw rfl rfl,
    .shiftMem .srl hw rfl rfl⟩

/-! ### Bit tests -/

/-- The flags of a bit test of any byte (R231). -/
theorem FlagsAre.testBit (s : State) (v : Byte) (b : BitVec 3) (cost : Nat) :
    FlagsAre ((testBit v b s).spend cost) (v.toNat / 2 ^ b.toNat % 2 = 0) False True s.fC :=
  .setFlags _ _ _ _ _ (bit_toNat v b) flag_clear flag_set .rfl

/-- Settles O42: both forms are one test of a byte, which writes flags and nothing else. -/
theorem bitTests : Obligations.BitTests := by
  unfold Obligations.BitTests
  refine fun s b r => ⟨?bitR, ?bitM⟩
  case bitR => exact .ofEncode rfl rfl rfl ⟨.testBit s (s.reg r) b 2, .setFlags ..⟩
  case bitM => exact .ofEncode rfl rfl rfl ⟨.testBit s s.atHl b 3, .setFlags ..⟩

/-! ### Bit writes -/

theorem Completes.imp {i : Instr} {bytes : List Byte} {cost : Nat} {s : State} {post post' : State → Prop}
    (h : Completes i bytes cost s post) (himp : ∀ t, post t → post' t) : Completes i bytes cost s post' := by
  obtain ⟨hreads, t, hexec, hcycles, hpost⟩ := h
  exact ⟨hreads, t, hexec, hcycles, himp t hpost⟩

@[simp] theorem reg_setReg_spend (s : State) (r : R8) (v : Byte) (cost : Nat) :
    ((s.setReg r v).spend cost).reg r = v := by
  cases r <;> rfl

/-- An instruction whose whole effect is a write of one register. -/
theorem Completes.setReg {i : Instr} {s : State} {r : R8} {v : Byte} {cost : Nat} (hi : i.wellFormed = true)
    (he : exec i s = done cost (s.setReg r v)) :
    Completes i (encode i) cost s fun t => t.reg r = v ∧ t.f = s.f ∧ Frame [r] [] s t :=
  .ofEncode hi he (State.setReg_cycles ..) ⟨reg_setReg_spend .., State.setReg_f .., .setReg ..⟩

/-- An instruction whose whole effect is a write of one byte of memory. -/
theorem Completes.memWrite {i : Instr} {s : State} {x : Word} {v : Byte} {cost : Nat} (hw : s.mem.wf = true)
    (hi : i.wellFormed = true) (he : exec i s = done cost (s.memWrite x v)) :
    Completes i (encode i) cost s fun t => Stored x v s t ∧ t.f = s.f ∧ Frame [] [x] s t :=
  .ofEncode hi he (State.memWrite_cycles ..) ⟨.memWrite hw _ _, State.memWrite_f .., .memWrite ..⟩

/-- Settles O43: the byte written differs from the old one in the named bit only. -/
theorem resAndSetRegister : Obligations.ResAndSetRegister := by
  unfold Obligations.ResAndSetRegister
  refine fun s b r => ⟨.imp (.setReg rfl rfl) ?res, .imp (.setReg rfl rfl) ?set⟩
  case res => exact fun _ ⟨hvalue, hkept⟩ => ⟨hvalue ▸ clearBit_getLsbD (s.reg r) b, hkept⟩
  case set => exact fun _ ⟨hvalue, hkept⟩ => ⟨hvalue ▸ setBit_getLsbD (s.reg r) b, hkept⟩

/-- Settles O44: the byte written is the old one with the mask of the bit applied. -/
theorem resAndSetMemory : Obligations.ResAndSetMemory := by
  unfold Obligations.ResAndSetMemory
  exact fun s b hw => ⟨.memWrite hw rfl rfl, .memWrite hw rfl rfl⟩

end Sys2Proof.Machine

/-! SUPPORT. Proofs of the statements about control transfer (42_jumps.md): each form is one of the shared operations of
R262, and a lemma says for each what an instruction with that effect completes with. -/

namespace Sys2Proof.Machine

/-! ### Jumps -/

/-- An instruction whose whole effect is a new PC. -/
theorem Completes.jump {i : Instr} {s : State} {target : Word} {cost : Nat} (hi : i.wellFormed = true)
    (he : exec i s = done cost (s.jump target)) :
    Completes i (encode i) cost s fun t => t = { s with pc := target, cycles := t.cycles } ∧ SameBytesExcept [] s t :=
  .ofEncode hi he rfl ⟨rfl, .ofMem rfl _⟩

/-- `Completes.jump` where the statement gives the new PC as an integer. -/
theorem Completes.jumpToInt {i : Instr} {s : State} {target : Word} {cost : Nat} {n : Int} (hi : i.wellFormed = true)
    (he : exec i s = done cost (s.jump target)) (hn : (target.toNat : Int) = n) :
    Completes i (encode i) cost s fun t =>
      (t.pc.toNat : Int) = n ∧ t = { s with pc := t.pc, cycles := t.cycles } ∧ SameBytesExcept [] s t :=
  .ofEncode hi he rfl ⟨hn, rfl, .ofMem rfl _⟩

/-- Settles O45: each is a jump, and the target of JR is the integer of R254 by `add_sext16_toInt`. -/
theorem jumps : Obligations.Jumps := by
  unfold Obligations.Jumps
  refine fun s a16 e8 => ⟨?jp, ?jpHl, ?jr⟩
  case jp => exact .jump rfl rfl
  case jpHl => exact .jump rfl rfl
  case jr => exact .jumpToInt rfl rfl (add_sext16_toInt s.pc e8)

/-! ### Conditional jumps -/

/-- The four conditions as the flags they test (R250). -/
theorem cond_iff (s : State) :
    (s.cond .nz = true ↔ s.fZ = false) ∧ (s.cond .z = true ↔ s.fZ = true) ∧
      (s.cond .nc = true ↔ s.fC = false) ∧ (s.cond .c = true ↔ s.fC = true) :=
  ⟨(Bool.not_eq_true' _).to_iff, .rfl, (Bool.not_eq_true' _).to_iff, .rfl⟩

/-- A conditional jump is a jump in both cases: not taken, it goes to PC as the fetch left it (R252). -/
theorem exec_jpCc (cc : Cond) (a16 : Word) (s : State) :
    exec (.jpCc cc a16) s = done (if s.cond cc then 4 else 3) (s.jump (if s.cond cc then a16 else s.pc)) := by
  change execJpCc cc a16 s = _
  unfold execJpCc
  split <;> rfl

/-- The same of a relative jump (R255). -/
theorem exec_jrCc (cc : Cond) (e8 : Byte) (s : State) :
    exec (.jrCc cc e8) s =
      done (if s.cond cc then 3 else 2) (s.jump (if s.cond cc then s.pc + sext16 e8 else s.pc)) := by
  change execJrCc cc e8 s = _
  unfold execJrCc
  split <;> rfl

/-- Settles O46: both outcomes are a jump, so the condition only chooses the target and the cost. -/
theorem conditionalJumps : Obligations.ConditionalJumps := by
  unfold Obligations.ConditionalJumps
  refine ⟨cond_iff, fun s cc a16 e8 => ⟨?jp, ?jr⟩⟩
  case jp => exact .jump rfl (exec_jpCc cc a16 s)
  case jr =>
    refine .jumpToInt rfl (exec_jrCc cc e8 s) ?_
    split
    · exact add_sext16_toInt s.pc e8
    · rfl

/-! ### Calls and restarts -/

/-- An instruction that does nothing but take its cost: a call or a return not taken. -/
theorem Completes.notTaken {i : Instr} {s : State} {cost : Nat} (hi : i.wellFormed = true)
    (he : exec i s = done cost s) :
    Completes i (encode i) cost s fun t => t = { s with cycles := t.cycles } ∧ SameBytesExcept [] s t :=
  .ofEncode hi he rfl ⟨rfl, .ofMem rfl _⟩

/-- A call changes PC, SP and memory only. -/
theorem callTo_eq (s : State) (target : Word) :
    s.callTo target = { s with pc := target, sp := s.sp - 2, mem := (s.push16 s.pc).mem } :=
  congrArg (State.jump · target) (push16_eq s s.pc)

/-- An instruction whose whole effect is `Push16(PC); pc <- target`. -/
theorem Completes.callTo {i : Instr} {s : State} {target : Word} {cost : Nat} (hw : s.mem.wf = true)
    (hi : i.wellFormed = true) (he : exec i s = done cost (s.callTo target)) :
    Completes i (encode i) cost s fun t =>
      Pushed (hiByte s.pc) (loByte s.pc) s t ∧
      t = { s with pc := target, sp := t.sp, cycles := t.cycles, mem := t.mem } :=
  .ofEncode hi he (State.push16_cycles ..) ⟨.ofPush16 hw rfl rfl, by rw [callTo_eq]; rfl⟩

/-- The vector of RST as an integer (R261). -/
theorem rst_target (n : BitVec 3) : 8 * n.zeroExtend 16 = BitVec.ofNat 16 (8 * n.toNat) := by
  revert n
  decide

/-- Settles O47: a call taken and RST are one operation, whatever the target. -/
theorem callsAndRestarts : Obligations.CallsAndRestarts := by
  unfold Obligations.CallsAndRestarts
  refine fun s cc a16 n hw => ⟨?call, fun htaken => ?taken, fun hnot => ?notTaken, ?rst⟩
  case call => exact .callTo hw rfl rfl
  case taken => exact .callTo hw rfl (if_pos htaken)
  case notTaken => exact .notTaken rfl (if_neg (ne_true_of_eq_false hnot))
  case rst => exact .callTo hw rfl (rst_target n ▸ rfl)

/-! ### Returns -/

/-- An instruction that pops PC and leaves IME with a given value (R258, R260). -/
theorem Completes.returnPop {i : Instr} {s : State} {cost : Nat} (ime : Bool) (hi : i.wellFormed = true)
    (he : exec i s = done cost { s.returnPop with ime := ime }) :
    Completes i (encode i) cost s fun t =>
      t.pc.toNat = (s.memRead (s.sp + 1)).toNat * 256 + (s.memRead s.sp).toNat ∧
      t = { s with pc := t.pc, sp := s.sp + 2, ime := ime, cycles := t.cycles } ∧ SameBytesExcept [] s t :=
  .ofEncode hi he rfl ⟨wordOf_toNat .., rfl, .ofMem rfl _⟩

/-- Settles O48: RET and RET cc taken leave IME as it is, and RETI sets it. -/
theorem returns : Obligations.Returns := by
  unfold Obligations.Returns
  refine fun s cc => ⟨?ret, fun htaken => ?taken, fun hnot => ?notTaken, ?reti⟩
  case ret => exact .returnPop s.ime rfl rfl
  case taken => exact .returnPop s.ime rfl (if_pos htaken)
  case notTaken => exact .notTaken rfl (if_neg (ne_true_of_eq_false hnot))
  case reti => exact .returnPop true rfl rfl

end Sys2Proof.Machine

/-! SUPPORT. Proofs of the statements about loads and stores (43_loads.md). A load of a register is `Completes.setReg` and
a store of a byte is `Completes.memWrite`; what is added here is the later write of HL, the 16-bit store and the pairs. -/

namespace Sys2Proof.Machine

/-! ### 8-bit loads and stores -/

/-- Settles O49: each of the three is one write of the destination register. -/
theorem registerLoads : Obligations.RegisterLoads := by
  unfold Obligations.RegisterLoads
  refine fun s r r' n8 => ⟨?fromReg, ?fromImm, ?fromMem⟩
  case fromReg => exact .setReg rfl rfl
  case fromImm => exact .setReg rfl rfl
  case fromMem => exact .setReg rfl rfl

/-- An instruction whose whole effect is a load of A. -/
theorem Completes.loadA {i : Instr} {s : State} {x : Word} {cost : Nat} (hi : i.wellFormed = true)
    (he : exec i s = done cost (s.loadA x)) :
    Completes i (encode i) cost s fun t => t.a = s.memRead x ∧ t.f = s.f ∧ Frame [.a] [] s t :=
  .setReg (r := .a) hi he

/-- Settles O50: five addresses of one load; the high-page ones are the integers of R280 by `highPage_eq`. -/
theorem loadsOfA : Obligations.LoadsOfA := by
  unfold Obligations.LoadsOfA
  refine fun s a16 a8 => ⟨?bc, ?de, ?abs, ?highImm, ?highC⟩
  case bc => exact .loadA rfl rfl
  case de => exact .loadA rfl rfl
  case abs => exact .loadA rfl rfl
  case highImm => exact highPage_eq a8 ▸ .loadA rfl rfl
  case highC => exact highPage_eq s.c ▸ .loadA rfl rfl

/-- Settles O51: seven addresses of one store; the high-page ones are the integers of R280 by `highPage_eq`. -/
theorem stores : Obligations.Stores := by
  unfold Obligations.Stores
  refine fun s r n8 a8 a16 hw => ⟨?reg, ?imm, ?bc, ?de, ?abs, ?highImm, ?highC⟩
  case reg => exact .memWrite hw rfl rfl
  case imm => exact .memWrite hw rfl rfl
  case bc => exact .memWrite hw rfl rfl
  case de => exact .memWrite hw rfl rfl
  case abs => exact .memWrite hw rfl rfl
  case highImm => exact highPage_eq a8 ▸ .memWrite hw rfl rfl
  case highC => exact highPage_eq s.c ▸ .memWrite hw rfl rfl

/-! ### The access at HL with HL written afterwards -/

theorem State.reg_setHl_other (s : State) (v : Word) {q : R8} (hh : q ≠ .h) (hl : q ≠ .l) :
    (s.setHl v).reg q = s.reg q := by
  cases q
  case h => exact absurd rfl hh
  case l => exact absurd rfl hl
  all_goals rfl

/-- Writing HL after an effect adds H and L to the registers that the effect may write. -/
theorem Frame.setHl {regs : List R8} {stored : List Word} {s t : State} {cost : Nat}
    (h : Frame regs stored s (t.spend cost)) (v : Word) :
    Frame (regs ++ [.h, .l]) stored s ((t.setHl v).spend cost) := by
  obtain ⟨hregs, hbytes, hrest⟩ := h
  refine ⟨fun q hq => ?reg, hbytes, congrArg (State.setHl · v) hrest⟩
  case reg =>
    simp only [List.mem_append, List.mem_cons, List.not_mem_nil, or_false, not_or] at hq
    obtain ⟨hq, hh, hl⟩ := hq
    exact (State.reg_setHl_other (t.spend cost) v hh hl).trans (hregs q hq)

/-- A store of A at HL, then a write of HL (R296, R297); HL is written whether or not the byte is. -/
theorem Completes.storeSetHl {i : Instr} {s : State} {v : Word} {cost : Nat} (hw : s.mem.wf = true)
    (hi : i.wellFormed = true) (he : exec i s = done cost ((s.storeA s.hl).setHl v)) :
    Completes i (encode i) cost s fun t =>
      Stored s.hl s.a s t ∧ t.hl = v ∧ t.f = s.f ∧ Frame [.h, .l] [s.hl] s t :=
  .ofEncode hi he (State.memWrite_cycles ..)
    ⟨.memWrite hw _ _, State.hl_setHl (s.storeA s.hl) v, State.memWrite_f .., (Frame.memWrite ..).setHl v⟩

/-- A load of A from HL, then a write of HL (R298, R299). -/
theorem Completes.loadSetHl {i : Instr} {s : State} {v : Word} {cost : Nat} (hi : i.wellFormed = true)
    (he : exec i s = done cost ((s.loadA s.hl).setHl v)) :
    Completes i (encode i) cost s fun t =>
      t.a = s.memRead s.hl ∧ t.hl = v ∧ t.f = s.f ∧ Frame [.a, .h, .l] [] s t :=
  .ofEncode hi he rfl ⟨rfl, State.hl_setHl (s.loadA s.hl) v, rfl, (Frame.setReg s .a ..).setHl v⟩

/-- Settles O52: the forms differ in the value that HL is given. -/
theorem postIncrementAndDecrement : Obligations.PostIncrementAndDecrement := by
  unfold Obligations.PostIncrementAndDecrement
  refine fun s hw => ⟨?storeInc, ?storeDec, ?loadInc, ?loadDec⟩
  case storeInc => exact .storeSetHl hw rfl rfl
  case storeDec => exact .storeSetHl hw rfl rfl
  case loadInc => exact .loadSetHl rfl rfl
  case loadDec => exact .loadSetHl rfl rfl

/-! ### 16-bit loads -/

/-- The pairs of an `r16` selector share no register. -/
theorem State.pair_setPair_other (s : State) {rr q : R16} (v : Word) (h : q ≠ rr) :
    (s.setPair rr v).pair q = s.pair q := by
  cases rr <;> cases q
  case bc.bc | de.de | hl.hl | sp.sp => exact absurd rfl h
  all_goals rfl

/-- An instruction whose whole effect is a write of one pair. -/
theorem Completes.setPair {i : Instr} {s : State} {rr : R16} {v : Word} {cost : Nat} (hi : i.wellFormed = true)
    (he : exec i s = done cost (s.setPair rr v)) :
    Completes i (encode i) cost s fun t =>
      t.pair rr = v ∧ (∀ q, q ≠ rr → t.pair q = s.pair q) ∧ SameBytesExcept [] s t ∧
      t = { s with b := t.b, c := t.c, d := t.d, e := t.e, h := t.h, l := t.l, sp := t.sp, cycles := t.cycles } := by
  have hspend (q : R16) : ((s.setPair rr v).spend cost).pair q = (s.setPair rr v).pair q := by cases q <;> rfl
  refine .ofEncode hi he (State.setPair_cycles ..) ⟨?same, fun q hq => ?other, .ofMem (State.setPair_mem ..) _, ?rest⟩
  case same => rw [hspend, State.pair_setPair]
  case other => rw [hspend, State.pair_setPair_other s v hq]
  case rest => cases rr <;> rfl

theorem word_ne_add_one (a : Word) : a ≠ a + 1 := by bv_omega

/-- A 16-bit store puts its low byte at the address; the high byte's write is to another address. -/
theorem Stored.memWriteWord_lo {s : State} (hw : s.mem.wf = true) (a v : Word) :
    Stored a (loByte v) s (s.memWriteWord a v) := by
  rw [Stored, State.memWriteWord, memRead_memWrite_other _ _ (word_ne_add_one a), memRead_memWrite_eq hw]

/-- A 16-bit store puts its high byte at the next address, modulo 65536 (20_memory.md R90). -/
theorem Stored.memWriteWord_hi {s : State} (hw : s.mem.wf = true) (a v : Word) :
    Stored (a + 1) (hiByte v) s (s.memWriteWord a v) := by
  rw [Stored, State.memWriteWord, memRead_memWrite_eq (memWrite_wf hw _ _),
    memRead_memWrite_other _ _ (word_ne_add_one a).symm]

theorem SameBytesExcept.memWriteWord (s : State) (a v : Word) :
    SameBytesExcept [a, a + 1] s (s.memWriteWord a v) :=
  .trans (.mono (.memWrite s a _) (by simp)) (.mono (.memWrite _ (a + 1) _) (by simp))

/-- A 16-bit store changes memory only. -/
theorem memWriteWord_eq (s : State) (a v : Word) :
    s.memWriteWord a v = { s with mem := (s.memWriteWord a v).mem } := by
  rw [State.memWriteWord, memWrite_eq, memWrite_eq s]

/-- An instruction whose whole effect is a 16-bit store. -/
theorem Completes.memWriteWord {i : Instr} {s : State} {x v : Word} {cost : Nat} (hw : s.mem.wf = true)
    (hi : i.wellFormed = true) (he : exec i s = done cost (s.memWriteWord x v)) :
    Completes i (encode i) cost s fun t =>
      Stored x (loByte v) s t ∧ Stored (x + 1) (hiByte v) s t ∧ SameBytesExcept [x, x + 1] s t ∧
      t = { s with cycles := t.cycles, mem := t.mem } :=
  .ofEncode hi he (by rw [memWriteWord_eq])
    ⟨.memWriteWord_lo hw x v, .memWriteWord_hi hw x v, .memWriteWord s x v, by rw [memWriteWord_eq]; rfl⟩

/-- Settles O53: a write of a pair, a 16-bit store, and a write of SP that leaves memory alone. -/
theorem sixteenBitLoads : Obligations.SixteenBitLoads := by
  unfold Obligations.SixteenBitLoads
  refine fun s rr n16 hw => ⟨?pair, ?storeSp, ?spHl⟩
  case pair => exact .setPair rfl rfl
  case storeSp => exact .memWriteWord hw rfl rfl
  case spHl => exact .ofEncode rfl rfl rfl ⟨rfl, .ofMem rfl _⟩

end Sys2Proof.Machine

/-! SUPPORT. Proofs of the statements about the stack (44_stack.md). What a push stores and what it leaves alone is
`Pushed.ofPush16` and `push16_eq`; what is added here is the pair as its two registers, and the frame of a pop. -/

namespace Sys2Proof.Machine

/-- An instruction whose whole effect is `Push16` of a word, given by its two bytes (R321). -/
theorem Completes.push16 {i : Instr} {s : State} {high low : Byte} {cost : Nat} (hw : s.mem.wf = true)
    (hi : i.wellFormed = true) (he : exec i s = done cost (s.push16 (wordOf high low))) :
    Completes i (encode i) cost s fun t =>
      Pushed high low s t ∧ t = { s with sp := t.sp, cycles := t.cycles, mem := t.mem } := by
  refine .ofEncode hi he (State.push16_cycles ..) ⟨?pushed, ?rest⟩
  case pushed =>
    have h : Pushed (hiByte (wordOf high low)) (loByte (wordOf high low)) s ((s.push16 (wordOf high low)).spend cost) :=
      .ofPush16 hw rfl rfl
    rwa [hiByte_wordOf, loByte_wordOf] at h
  case rest => rw [push16_eq]; rfl

/-- No pair of an `r16stk` selector is SP, so a pop is a write of the pair beside the move of SP (R126). -/
theorem State.popSp_setStkPair (s : State) (rr : R16Stk) (v : Word) :
    s.popSp.setStkPair rr v = { s.setStkPair rr v with sp := s.sp + 2 } := by
  cases rr <;> rfl

/-- POP of a pair whose write at `s` gives `u` (R322). -/
theorem Completes.pop {rr : R16Stk} {s u : State}
    (hu : s.setStkPair rr (wordOf (s.memRead (s.sp + 1)) (s.memRead s.sp)) = u) :
    Completes (.pop rr) (encode (.pop rr)) 3 s fun t =>
      t = { u with sp := s.sp + 2, cycles := t.cycles } ∧ SameBytesExcept [] s t := by
  subst hu
  exact .ofEncode rfl (congrArg (done 3) (s.popSp_setStkPair rr s.popValue)) (State.setStkPair_cycles ..)
    ⟨rfl, .ofMem (State.setStkPair_mem ..) _⟩

/-! ### A pair written as its two registers (R126) -/

theorem State.setBc_wordOf (s : State) (hi lo : Byte) : s.setBc (wordOf hi lo) = { s with b := hi, c := lo } := by
  simp [State.setBc]

theorem State.setDe_wordOf (s : State) (hi lo : Byte) : s.setDe (wordOf hi lo) = { s with d := hi, e := lo } := by
  simp [State.setDe]

theorem State.setHl_wordOf (s : State) (hi lo : Byte) : s.setHl (wordOf hi lo) = { s with h := hi, l := lo } := by
  simp [State.setHl]

theorem State.setAf_wordOf (s : State) (hi lo : Byte) :
    s.setAf (wordOf hi lo) = { s with a := hi, f := lo &&& 0xF0 } := by
  simp [State.setAf]

/-- Settles O54: PUSH is `Push16` of the pair's two registers, POP a write of them beside the move of SP. -/
theorem pushAndPop : Obligations.PushAndPop := by
  unfold Obligations.PushAndPop
  refine fun s hw => ⟨⟨?pushBc, ?pushDe, ?pushHl, ?pushAf⟩, ?popBc, ?popDe, ?popHl, ?popAf⟩
  case pushBc => exact .push16 hw rfl rfl
  case pushDe => exact .push16 hw rfl rfl
  case pushHl => exact .push16 hw rfl rfl
  case pushAf => exact .push16 hw rfl rfl
  case popBc => exact .pop (s.setBc_wordOf ..)
  case popDe => exact .pop (s.setDe_wordOf ..)
  case popHl => exact .pop (s.setHl_wordOf ..)
  case popAf => exact .pop (s.setAf_wordOf ..)

end Sys2Proof.Machine

/-! SUPPORT. Proofs of the statements about 16-bit arithmetic (45_arith16.md). Their flags are the `_iff` laws of
Laws/Alu.lean and a signed operand is `add_sext16_toInt`; what is added here is the result of DEC, the
frame of a write of HL with flags, and the flags of a sum with SP. -/

namespace Sys2Proof.Machine

/-! ### Arithmetic on pairs -/

/-- Writing HL and the flags leaves every other register and every byte alone (R330). -/
theorem Frame.setHlFlags (s : State) (v : Word) (z n h c : Bool) (cost : Nat) :
    Frame [.h, .l] [] s (((s.setHl v).setFlags z n h c).spend cost) :=
  (Frame.setFlags s z n h c cost).setHl v

/-- The result of DEC rr, over the integers so that 0 wraps (R332). -/
theorem word_sub_one_toInt (w : Word) : ((w - 1).toNat : Int) = ((w.toNat : Int) - 1) % 65536 := by
  have hsub : (w - 1).toNat = (65535 + w.toNat) % 65536 := BitVec.toNat_sub w 1
  omega

/-- Settles O55: ADD HL is a write of HL with flags, Z given its old value; INC and DEC are writes of the pair. -/
theorem pairArithmetic : Obligations.PairArithmetic := by
  unfold Obligations.PairArithmetic
  refine fun s rr => ⟨?addHl, .imp (.setPair rfl rfl) ?inc, .imp (.setPair rfl rfl) ?dec⟩
  case addHl =>
    refine .ofEncode rfl rfl rfl ⟨?sum, .setFlags _ _ _ _ _ .rfl flag_clear ?half ?carry, .setHlFlags ..⟩
    case sum => exact (congrArg BitVec.toNat (s.hl_setHl _)).trans (BitVec.toNat_add s.hl (s.pair rr))
    case half => exact add16Half_iff s.hl (s.pair rr)
    case carry => exact add16Carry_iff s.hl (s.pair rr)
  case inc => exact fun _ ⟨hvalue, hkept⟩ => ⟨hvalue ▸ BitVec.toNat_add (s.pair rr) 1, hkept⟩
  case dec => exact fun _ ⟨hvalue, hkept⟩ => ⟨hvalue ▸ word_sub_one_toInt (s.pair rr), hkept⟩

/-! ### Stack-pointer arithmetic -/

/-- The flags of SP plus a signed byte, whatever state they are written to (R333). -/
theorem FlagsAre.setSpFlags (s : State) (sp : Word) (e8 : Byte) (cost : Nat) :
    FlagsAre ((s.setSpFlags sp e8).spend cost) False False (sp.toNat % 16 + e8.toNat % 16 > 15)
      (sp.toNat % 256 + e8.toNat > 255) :=
  .setFlags _ _ _ _ _ flag_clear flag_clear (addSpHalf_iff sp e8) (addSpCarry_iff sp e8)

/-- Settles O56: both write the same sum, the one to SP and the other to HL, with the same flags. -/
theorem stackPointerArithmetic : Obligations.StackPointerArithmetic := by
  unfold Obligations.StackPointerArithmetic
  refine fun s e8 => ⟨.ofEncode rfl rfl rfl ⟨?sp, .setSpFlags .., .ofMem rfl _, rfl⟩,
    .ofEncode rfl rfl rfl ⟨?hl, .setSpFlags .., .ofMem rfl _, rfl⟩⟩
  case sp => exact add_sext16_toInt s.sp e8
  case hl =>
    have hhl : (((s.setHl (s.sp + sext16 e8)).setSpFlags s.sp e8).spend 3).hl = s.sp + sext16 e8 := s.hl_setHl _
    rw [hhl, add_sext16_toInt]

end Sys2Proof.Machine

/-! SUPPORT. Proofs of the statements about the control instructions (46_misc_control.md), which write control state only.
What is added here is the Step of a stuck, a halted and a running core, what every instruction does to IME and
`ei_pending`, and the costs of the second page. -/

namespace Sys2Proof.Machine

/-- Settles O57: both write control state only. -/
theorem nopAndDi : Obligations.NopAndDi := by
  unfold Obligations.NopAndDi
  exact fun s => ⟨.ofEncode rfl rfl rfl ⟨rfl, .ofMem rfl _⟩, .ofEncode rfl rfl rfl ⟨rfl, .ofMem rfl _⟩⟩

/-! ### The Step of a stuck and of a halted core -/

theorem State.stuck_of_stopped {s : State} (h : s.stopped = true) : s.stuck = true := by
  rw [State.stuck, h, Bool.or_true]

theorem stepWith_of_stuck (cfg : Config) {s : State} (h : s.stuck = true) : stepWith cfg s = .next s := if_pos h

/-- Settles O9: a stopped machine is stuck, and a request writes IF only, so it stays stopped. -/
theorem stopIsFinal : Obligations.StopIsFinal := by
  unfold Obligations.StopIsFinal
  refine ⟨fun pad s => ?stop, fun cfg s hstopped => ⟨?same, fun k => ?requested⟩⟩
  case stop => exact .ofEncode rfl rfl rfl ⟨rfl, .ofMem rfl _⟩
  case same => exact stepWith_of_stuck cfg (State.stuck_of_stopped hstopped)
  case requested =>
    have hkept : (hostRequestInterrupt k s).stopped = s.stopped := requestInterrupt_stopped k s
    exact stepWith_of_stuck cfg (State.stuck_of_stopped (hkept.trans hstopped))

theorem stepWith_of_cpuPart (cfg : Config) {s t : State} (hstuck : s.stuck = false) (h : cpuPart s = .next t) :
    stepWith cfg s = .next (forwardTicks ((t.cycles - s.cycles) * cfg.ticksPerCycle) t) := by
  rw [stepWith, hstuck, h]
  rfl

/-- With an enabled interrupt pending the wake comes first, so whether the core was halted makes no difference (R341). -/
theorem cpuPart_of_pending {s : State} (h : pendingEnabled s ≠ 0) : cpuPart s = cpuPart { s with halted := false } := by
  have hwake : wake s = { s with halted := false } := wake_of_pending fun _ => h
  have hawake : wake { s with halted := false } = { s with halted := false } := wake_of_pending fun _ => h
  rw [cpuPart, cpuPart, hwake, hawake]
  rfl

/-- Settles O7: a halted core with nothing pending spends one cycle (`cpuPart_idle`), and else it wakes. -/
theorem haltIdlesUntilAnEnabledInterrupt : Obligations.HaltIdlesUntilAnEnabledInterrupt := by
  unfold Obligations.HaltIdlesUntilAnEnabledInterrupt
  refine ⟨fun s => ?halt, fun cfg s hstuck hhalted hnone => ?idle, fun cfg s hstuck _ hpending => ?wakes⟩
  case halt => exact .ofEncode rfl rfl rfl ⟨rfl, .ofMem rfl _⟩
  case idle =>
    have hcost : s.cycles + 1 - s.cycles = 1 := Nat.add_sub_cancel_left ..
    rw [stepWith_of_cpuPart cfg hstuck (cpuPart_idle hhalted hnone), hcost, Nat.one_mul]
  case wakes =>
    obtain ⟨t, ht, -⟩ := cpuPart_cases s
    have htwoken : cpuPart { s with halted := false } = .next t := (cpuPart_of_pending hpending).symm.trans ht
    exact (stepWith_of_cpuPart cfg hstuck ht).trans (stepWith_of_cpuPart (s := { s with halted := false }) cfg hstuck htwoken).symm

/-! ### IME and the EI delay -/

theorem eq_spend_of_branch {taken : Bool} {m n : Nat} {t u v : State}
    (h : (if taken then done m u else done n v) = .next t) : t = u.spend m ∨ t = v.spend n := by
  cases taken
  case true => exact .inl (Host.Outcome.next.inj h).symm
  case false => exact .inr (Host.Outcome.next.inj h).symm

/-- Only DI, EI and RETI write IME or `ei_pending` (R343, R344, 42_jumps.md R260); every other instruction is made of
updates whose field laws say that they keep both. -/
theorem exec_ime_eiPending_iff {i : Instr} {s t : State} (hi : i.wellFormed = true) (h : exec i s = .next t) :
    (t.ime = true ↔ i = .reti ∨ (i ≠ .di ∧ s.ime = true)) ∧
      (t.eiPending = true ↔ i = .ei ∨ (i ≠ .di ∧ s.eiPending = true)) := by
  cases i
  case prefixCB => cases hi
  case di | ei | reti =>
    cases h
    simp [returnFromInterrupt, State.returnPop]
  case jpCc | jrCc | callCc | retCc =>
    obtain rfl | rfl := eq_spend_of_branch h
    all_goals simp [State.callTo, State.returnPop, State.jumpRelative]
  all_goals
    obtain rfl := Host.Outcome.next.inj h
    simp [State.callTo, State.returnPop, State.jumpRelative, State.setAtHl, State.storeA, State.loadA,
      State.memWriteWord, State.setSpFlags, testBit]

theorem promoteEi_fault (before : Bool) (s : State) : (promoteEi before s).fault = s.fault := by rw [promoteEi_eq]

theorem promoteEi_of_no_delay (s : State) : promoteEi false s = s := rfl

/-- The EI delay in force when no fault was raised (R380). -/
theorem promoteEi_of_delay {s : State} (h : s.fault = none) :
    (promoteEi true s).eiPending = false ∧ (promoteEi true s).ime = (s.ime || s.eiPending) := by
  rw [promoteEi, h]
  cases hpending : s.eiPending <;> simp [hpending]

theorem fetchInstr_wellFormed (s : State) : (fetchInstr s).wellFormed = true := resolvePrefix_wellFormed _

/-- The CPU part of a running core is the instruction at PC, run awake and followed by the EI delay (R380). -/
theorem CpuPart.of_running {s u : State} (hs : s.Running) (h : CpuPart s u) :
    ∃ v, exec (fetchInstr s) (fetchAdvance { s with halted := false }) = .next v ∧ u = promoteEi s.eiPending v := by
  obtain ⟨-, hwakes, hnone⟩ := hs
  have hwake : wake s = { s with halted := false } := wake_of_pending hwakes
  cases h with
  | dispatch hime hpending => exact absurd ⟨hime, hpending⟩ hnone
  | idle _ hhalted =>
    rw [hwake] at hhalted
    cases hhalted
  | ran _ _ v hv =>
    rw [hwake] at hv
    exact ⟨v, hv, rfl⟩

/-- R344 of the CPU part of a running core, when its instruction raises no fault. -/
theorem CpuPart.eiDelay {s u : State} (hs : s.Running) (h : CpuPart s u) (hfault : u.fault = none) :
    (s.eiPending = true → u.eiPending = false ∧ (u.ime = true ↔ fetchInstr s ≠ .di)) ∧
      (s.eiPending = false →
        (u.eiPending = true ↔ fetchInstr s = .ei) ∧
        (u.ime = true ↔ fetchInstr s = .reti ∨ (fetchInstr s ≠ .di ∧ s.ime = true))) := by
  obtain ⟨v, hv, rfl⟩ := h.of_running hs
  rw [promoteEi_fault] at hfault
  obtain ⟨hime, hpending⟩ := exec_ime_eiPending_iff (fetchInstr_wellFormed s) hv
  refine ⟨fun hdelay => ?delayed, fun hdelay => ?undelayed⟩
  case delayed =>
    obtain ⟨hcleared, hset⟩ := promoteEi_of_delay hfault
    rw [hdelay, hset, Bool.or_eq_true, hime, hpending]
    refine ⟨hcleared, ?_⟩
    by_cases hdi : fetchInstr s = .di
    · simp [hdi]
    · simp [hdi, hdelay, fetchAdvance]
  case undelayed =>
    rw [hdelay, promoteEi_of_no_delay, hime, hpending]
    simp [hdelay, fetchAdvance]

/-- A Step of a core that is not stuck ends with the CPU half as its CPU part left it: ticks do not touch it (R381). -/
theorem cpuPart_of_stepWith {cfg : Config} {s t : State} (hstuck : s.stuck = false) (h : stepWith cfg s = .next t) :
    ∃ u, CpuPart s u ∧ t.cpu = u.cpu := by
  obtain ⟨u, hu, hpart⟩ := cpuPart_cases s
  rw [stepWith_of_cpuPart cfg hstuck hu] at h
  cases h
  exact ⟨u, hpart, (forwardTicks_effect _ u).cpu⟩

/-- Settles O8: what the instruction and the delay do is `CpuPart.eiDelay`, and the ticks keep it. -/
theorem eiTakesEffectAfterOneInstruction : Obligations.EiTakesEffectAfterOneInstruction := by
  unfold Obligations.EiTakesEffectAfterOneInstruction
  refine ⟨fun s => ?ei, fun cfg s t hs hstep hfault => ?step⟩
  case ei => exact .ofEncode rfl rfl rfl ⟨rfl, .ofMem rfl _⟩
  case step =>
    have ⟨hstuck, _⟩ := hs
    obtain ⟨u, hpart, hcpu⟩ := cpuPart_of_stepWith hstuck hstep
    have hime : t.ime = u.ime := congrArg Cpu.ime hcpu
    have hpending : t.eiPending = u.eiPending := congrArg Cpu.eiPending hcpu
    have hnone : u.fault = none := (congrArg Cpu.fault hcpu).symm.trans hfault
    rw [hime, hpending]
    exact hpart.eiDelay hs hnone

/-! ### The second page -/

/-- The two rotate and shift groups of the second page are one operation each (R215 to R230). -/
theorem exec_shiftR (op : ShiftOp) (r : R8) (s : State) : exec (CbOp.shiftR op r).toInstr s = shiftReg op r s := by
  cases op <;> rfl

theorem exec_shiftM (op : ShiftOp) (s : State) : exec (CbOp.shiftM op).toInstr s = shiftMem op s := by
  cases op <;> rfl

/-- A second-page instruction costs 2 on a register; on the byte at HL it costs 3 if it only tests it, else 4
(70_reset_and_hazards.md R446). -/
theorem exec_toInstr_cycles (op : CbOp) (s : State) :
    ∃ t, exec op.toInstr s = .next t ∧
      (t.cycles = s.cycles + 2 ∨ t.cycles = s.cycles + 3 ∨ t.cycles = s.cycles + 4) := by
  cases op with
  | shiftR op r => exact ⟨_, exec_shiftR op r s, .inl (by simp)⟩
  | shiftM op => exact ⟨_, exec_shiftM op s, .inr (.inr (by simp [State.setAtHl]))⟩
  | bitR n r => exact ⟨_, rfl, .inl rfl⟩
  | bitM n => exact ⟨_, rfl, .inr (.inl rfl)⟩
  | resR n r | setR n r => exact ⟨_, rfl, .inl (by simp)⟩
  | resM n | setM n => exact ⟨_, rfl, .inr (.inr (by simp [State.setAtHl]))⟩

/-- Settles O58: the instruction is the second byte's place in the grid, whose encoding the two bytes are. -/
theorem prefixSelectsTheSecondPage : Obligations.PrefixSelectsTheSecondPage := by
  unfold Obligations.PrefixSelectsTheSecondPage
  intro s second
  obtain ⟨t, hexec, hcost⟩ := exec_toInstr_cycles (decodeCb second) s
  have hbare : exec (.prefixCB second) s = .next t := (execPrefixCB_eq second s).trans hexec
  exact ⟨(decodeCb second).toInstr, t, .cb rfl, CbOp.toInstr_wellFormed _, encode_decodeCb second, hexec, hbare, hcost⟩

end Sys2Proof.Machine

/-! SUPPORT. Proofs of the statements about exceptions, interrupts and the devices (60_exceptions.md). What a Step, a timer
tick and a PPU step can do is said in Laws/Step.lean and Laws/Devices.lean. What is added here is the dispatch by number,
the fetch of an undefined byte, the bytes that the parts of a tick leave when they follow each other, the integer form of a
shade, and the position of the PPU within a frame. -/

namespace Sys2Proof.Machine

/-! ### Requesting an interrupt (R366) -/

/-- Writing the byte that is already there changes nothing: canonical memories that read alike are equal. -/
theorem memWrite_memRead {s : State} (hw : s.mem.wf = true) (a : Word) : s.memWrite a (s.memRead a) = s := by
  have hmem : s.mem.write a.toNat (s.memRead a) = s.mem := by
    refine Memory.ext_of_wf (Memory.wf_write hw a.isLt _) hw fun x => ?_
    by_cases hx : x = a.toNat
    · rw [hx, Memory.read_write_same hw]; rfl
    · exact Memory.read_write_other _ _ hx
  rw [memWrite_record, hmem, ite_self]

theorem requestInterrupt_requestInterrupt {s : State} (hw : s.mem.wf = true) (k : Irq) :
    requestInterrupt k (requestInterrupt k s) = requestInterrupt k s := by
  have hset : (requestInterrupt k s).memRead addrIF ||| k.mask = (requestInterrupt k s).memRead addrIF := by
    rw [requestInterrupt_memRead hw, if_pos rfl, BitVec.or_assoc, BitVec.or_self]
  rw [requestInterrupt, hset, memWrite_memRead (requestInterrupt_wf hw k)]

/-- Settles O30: a request is one bus write of IF, and the second one writes the byte that is there. -/
theorem requestSetsItsBitOfIf : Obligations.RequestSetsItsBitOfIf := by
  unfold Obligations.RequestSetsItsBitOfIf
  intro s k n hw hkind
  have hindex : k.index = n := by revert hkind; cases k <;> simp [Irq.index, eq_comm]
  subst hindex
  exact ⟨requestInterrupt_memRead hw k addrIF, requestInterrupt_bytes k s, requestInterrupt_record k s,
    requestInterrupt_requestInterrupt hw k⟩

/-! ### Dispatching an interrupt (R368, R370) -/

/-- The kind chosen is the one of the lowest bit set, of the bits 4:0; each byte is evaluated. -/
theorem lowestPending_lowest :
    ∀ pend : Byte, pend &&& 0x1F = pend → pend ≠ 0 → pend.getLsbD (lowestPending pend).index = true ∧
      ∀ j < (lowestPending pend).index, pend.getLsbD j = false := by decide

theorem pendingEnabled_masked (s : State) : pendingEnabled s &&& 0x1F = pendingEnabled s := by
  rw [pendingEnabled, BitVec.and_assoc, BitVec.and_self]

theorem Irq.index_lt (k : Irq) : k.index < 5 := by cases k <;> decide

theorem Irq.vector_eq (k : Irq) : k.vector = BitVec.ofNat 16 (0x0040 + 8 * k.index) := by cases k <;> rfl

/-- The dispatch from a woken core, in the terms of R370: `k` by its number and each write by its address. -/
theorem dispatchInterrupt_awake (k : Irq) (s : State) :
    dispatchInterrupt k { s with halted := false } =
      { ((s.memWrite addrIF (s.memRead addrIF &&& ~~~((1 : Byte) <<< k.index))).memWrite (s.sp - 1)
          (hiByte s.pc)).memWrite (s.sp - 2) (loByte s.pc) with
        ime := false, halted := false, sp := s.sp - 2, pc := BitVec.ofNat 16 (0x0040 + 8 * k.index),
        cycles := s.cycles + 5 } := by
  rw [dispatchInterrupt_eq, Irq.vector_eq]
  simp only [memWrite_record]
  rfl

/-- Settles O6: `k` is the number of the kind that the Step chooses, and the dispatch is `dispatchInterrupt_awake`. -/
theorem stepDispatchesLowestInterrupt : Obligations.StepDispatchesLowestInterrupt := by
  unfold Obligations.StepDispatchesLowestInterrupt
  intro cfg s hstuck hime hpending
  obtain ⟨hset, hlower⟩ := lowestPending_lowest _ (pendingEnabled_masked s) hpending
  refine ⟨(lowestPending (pendingEnabled s)).index, Irq.index_lt _, hset, hlower, ?dispatch⟩
  case dispatch =>
    have hcpu := cpuPart_dispatch hime hpending
    have hcost : s.cycles + 5 - s.cycles = 5 := Nat.add_sub_cancel_left ..
    rw [dispatchInterrupt_awake] at hcpu
    rw [stepWith_of_cpuPart cfg hstuck hcpu, hcost]
    rfl

/-! ### Executing an instruction (R380) -/

theorem runInstruction_of_exec {s t : State} (h : exec (fetchInstr s) (fetchAdvance s) = .next t) :
    runInstruction s = .next (promoteEi s.eiPending t) := by
  rw [runInstruction, h]

theorem promoteEi_cycles (before : Bool) (s : State) : (promoteEi before s).cycles = s.cycles := by rw [promoteEi_eq]

theorem promoteEi_of_fault (before : Bool) {s : State} (h : s.fault ≠ none) : promoteEi before s = s := by
  rw [promoteEi, if_neg]
  simp [Option.isNone_iff_eq_none, h]

/-- What `decode` leaves of the three bytes at PC tells how many of them are the instruction's. -/
theorem fetch_of_decode {s : State} {i : Instr} {rest : List Byte}
    (h : decode [s.memRead s.pc, s.memRead (s.pc + 1), s.memRead (s.pc + 2)] = .ok (i, rest)) :
    i = fetchInstr s ∧ 3 - rest.length = opLength (s.memRead s.pc) := by
  obtain ⟨op, tail, hbytes, -, rfl, rfl⟩ := decode_eq_ok_iff.mp h
  cases hbytes
  have hlength := opLength_bounds (s.memRead s.pc)
  exact ⟨rfl, by simp only [List.length_drop, List.length_cons, List.length_nil]; omega⟩

/-- Settles O5: the bytes decoded are the ones fetched, and the Step of a running core runs that instruction. -/
theorem stepRunsTheDecodedInstruction : Obligations.StepRunsTheDecodedInstruction := by
  unfold Obligations.StepRunsTheDecodedInstruction
  intro s t i rest hs hdecode hexec
  obtain ⟨hi, hlength⟩ := fetch_of_decode hdecode
  rw [hi, hlength] at hexec
  have hcpu : cpuPart s = .next (promoteEi s.eiPending t) := (cpuPart_running hs).trans (runInstruction_of_exec hexec)
  obtain ⟨hstuck, -⟩ := hs
  rw [step, stepWith_of_cpuPart _ hstuck hcpu, promoteEi_cycles]
  simp [Config.standard, promoteEi, and_assoc]

/-! ### Faults (R361, R362) -/

theorem opLength_of_undefined : ∀ op ∈ undefinedBytes, opLength op = 1 := by decide

/-- Fetching an undefined byte: PC has passed it, and the fault names the address before that. -/
theorem exec_fetchInstr_of_undefined {s : State} (h : s.memRead s.pc ∈ undefinedBytes) :
    exec (fetchInstr s) (fetchAdvance s) =
      .next { s with pc := s.pc + 1, fault := some (.unknownOpcode (s.memRead s.pc) s.pc) } := by
  have hback : s.pc + 1 - 1 = s.pc := BitVec.add_sub_cancel s.pc 1
  rw [fetchInstr, exec_undefined (undefinedOpcode_decodeBytes_of_mem h _ _), fetchAdvance, opLength_of_undefined _ h]
  change Host.Outcome.next { s with pc := s.pc + 1, fault := some (.unknownOpcode _ (s.pc + 1 - 1)) } = _
  rw [hback]

theorem State.stuck_of_fault {s : State} (h : s.fault ≠ none) : s.stuck = true := by
  rw [State.stuck, Option.isSome_iff_ne_none.mpr h, Bool.true_or]

theorem State.fault_of_not_stuck {s : State} (h : s.stuck = false) : s.fault = none := by
  by_contra hfault
  exact Bool.false_ne_true (h.symm.trans (State.stuck_of_fault hfault))

/-- Settles O10: the fault costs nothing, so no tick is forwarded, and with it the machine is stuck. -/
theorem unknownOpcodeFaultsAndSticks : Obligations.UnknownOpcodeFaultsAndSticks := by
  unfold Obligations.UnknownOpcodeFaultsAndSticks
  refine ⟨fun cfg s hs hop => ?raised, fun cfg s hfault => stepWith_of_stuck cfg (State.stuck_of_fault hfault)⟩
  case raised =>
    have hcpu := (cpuPart_running hs).trans
      (runInstruction_of_exec (exec_fetchInstr_of_undefined (s := { s with halted := false }) hop))
    obtain ⟨hstuck, -⟩ := hs
    rw [promoteEi_of_fault _ (Option.some_ne_none _)] at hcpu
    rw [stepWith_of_cpuPart cfg hstuck hcpu, Nat.sub_self, Nat.zero_mul]
    rfl

theorem Instr.wellFormed_of_undefinedOpcode {i : Instr} {op : Byte} (h : i.undefinedOpcode = some op) :
    i.wellFormed = true := by
  cases i
  case prefixCB => cases h
  all_goals rfl

/-- Settles O11: each row of the list is the undefined row of its byte, and a byte is its row's encoding. -/
theorem undefinedRowsRecordTheirFault : Obligations.UndefinedRowsRecordTheirFault := by
  unfold Obligations.UndefinedRowsRecordTheirFault
  intro s p hp
  have hrow : p.1.undefinedOpcode = some p.2 := by revert p; decide
  obtain ⟨hencode, -⟩ := Instr.encode_of_undefinedOpcode hrow
  exact ⟨hencode ▸ reads_encode (Instr.wellFormed_of_undefinedOpcode hrow), exec_undefined hrow s⟩

theorem wake_memRead_pc (s : State) : (wake s).memRead (wake s).pc = s.memRead s.pc := by rw [wake_eq]; rfl

/-- An instruction that completes raises nothing. -/
theorem exec_fault {i : Instr} {s t : State} (hi : i.undefinedOpcode = none) (h : exec i s = .next t) :
    t.fault = s.fault := by
  obtain ⟨u, hu, heffect, -⟩ := exec_completed hi s
  cases hu.symm.trans h
  exact heffect.fault

/-- The fault after the CPU part of a Step: only an undefined byte at PC raises one (R362, R363). -/
theorem CpuPart.fault_cases {s t : State} (h : CpuPart s t) :
    t.fault = s.fault ∨ s.memRead s.pc ∈ undefinedBytes ∧ t.fault = some (.unknownOpcode (s.memRead s.pc) s.pc) := by
  cases h with
  | dispatch => exact .inl ((CpuEffect.dispatchInterrupt _ _).fault.trans (wake_fault s))
  | idle => exact .inl (wake_fault s)
  | ran _ _ v hv =>
    rw [promoteEi_fault]
    by_cases hop : s.memRead s.pc ∈ undefinedBytes
    · rw [exec_fetchInstr_of_undefined ((wake_memRead_pc s).symm ▸ hop)] at hv
      cases hv
      exact .inr ⟨hop, by rw [wake_memRead_pc, wake_pc]⟩
    · have hdefined : (fetchInstr (wake s)).undefinedOpcode = none := by
        rw [fetchInstr, undefinedOpcode_decodeBytes, wake_memRead_pc, if_neg hop]
      exact .inl ((exec_fault hdefined hv).trans (wake_fault s))

/-- Settles O12: a stuck machine keeps its fault, else the fault is the CPU part's, which ticks do not touch. -/
theorem onlyUnknownOpcodeIsRaised : Obligations.OnlyUnknownOpcodeIsRaised := by
  unfold Obligations.OnlyUnknownOpcodeIsRaised
  intro cfg s
  obtain ⟨hstuck, hstep⟩ | ⟨u, hstuck, -, hpart, hstep⟩ := stepWith_cases cfg s
  · exact ⟨s, hstep, .inl rfl, id, id⟩
  · have hticks : (forwardTicks ((u.cycles - s.cycles) * cfg.ticksPerCycle) u).fault = u.fault :=
      congrArg Cpu.fault (forwardTicks_effect _ u).cpu
    refine ⟨_, hstep, ?_⟩
    rw [hticks]
    obtain hkept | ⟨hop, hraised⟩ := hpart.fault_cases
    · rw [hkept]
      exact ⟨.inl rfl, id, id⟩
    · rw [hraised]
      exact ⟨.inr ⟨State.fault_of_not_stuck hstuck, hop, rfl⟩, by simp, by simp⟩

/-! ### The timer (R390, R391) -/

/-- The bit that TAC selects, as the table of R390 lists it. -/
theorem timerBit_select : ∀ tac : Byte,
    timerBit (tac.extractLsb' 0 2) = ([9, 3, 5, 7] : List Nat).getD (tac.toNat % 4) 0 := by decide

/-- The state that actions (1) to (3) leave for the sample and the edge. -/
theorem timerAdvance_timerReload_record (s : State) :
    timerAdvance (timerReload s) = { s with
      tcount := s.tcount + 1, tov := (timerReload s).tov, mem := (timerAdvance (timerReload s)).mem } := by
  rw [timerAdvance_record, timerReload_record]

/-- The bytes that actions (1) to (3) leave. -/
theorem timerAdvance_timerReload_memRead {s : State} (hw : s.mem.wf = true) (x : Word) :
    (timerAdvance (timerReload s)).memRead x =
      if x = addrDIV then hiByte (s.tcount + 1)
      else if x = addrTIMA then (if s.tov then s.memRead addrTMA else s.memRead addrTIMA)
      else if x = addrIF then (if s.tov then s.memRead addrIF ||| 0x04 else s.memRead addrIF)
      else s.memRead x := by
  obtain ⟨hw1, -, hreload⟩ := timerReload_spec hw
  obtain ⟨-, hadvance⟩ := timerAdvance_spec hw1
  rw [hadvance, hreload, timerReload_record]

/-- Settles O19: actions (1) to (3) leave the bytes that the sample and the edge of actions (4) and (5) then read. -/
theorem timerTickActions : Obligations.TimerTickActions := by
  unfold Obligations.TimerTickActions
  intro s hw tima tac sel cur edge t
  obtain ⟨hw1, htov, -⟩ := timerReload_spec hw
  obtain ⟨hw2, -⟩ := timerAdvance_spec hw1
  have hmid := timerAdvance_timerReload_record s
  have hread := timerAdvance_timerReload_memRead hw
  have htima : (timerAdvance (timerReload s)).memRead addrTIMA = tima := hread addrTIMA
  have htac : (timerAdvance (timerReload s)).memRead addrTAC = tac := hread addrTAC
  have hcur : timerSample (timerAdvance (timerReload s)) = cur := by
    rw [timerSample, htac, timerBit_select, hmid]
  have hprev : (timerAdvance (timerReload s)).tprev = s.tprev := by rw [hmid]
  obtain ⟨htov', htprev', hread'⟩ := timerEdge_spec hw2 (by rw [hmid]; exact htov)
  rw [hcur, hprev, htima] at htov' hread'
  refine ⟨congrArg State.tcount (timerTick_record s), htprev'.trans hcur, htov', ?div, hread' addrTIMA, ?irq,
    timerTick_bytes s, timerTick_frame s⟩
  case div => exact (hread' addrDIV).trans (hread addrDIV)
  case irq => exact (hread' addrIF).trans (hread addrIF)

/-- Settles O20: both clauses are `timerTickActions` at the two ticks; a tick that latches an overflow has an edge, and
one that starts with a clear sample has none. -/
theorem timerReloadsOneTickLate : Obligations.TimerReloadsOneTickLate := by
  unfold Obligations.TimerReloadsOneTickLate
  refine ⟨fun s hw htov hfull hlatched => ?wrap, fun u hw htov hprev => ?reload⟩
  case wrap =>
    obtain ⟨-, hsample, hoverflow, -, htima, hif, -⟩ := timerTickActions s hw
    rw [hlatched, ← hsample] at hoverflow
    rw [← hsample] at htima
    obtain ⟨hedge, -⟩ := Bool.and_eq_true_iff.mp hoverflow.symm
    rw [hedge, if_pos rfl, htov, if_neg Bool.false_ne_true, hfull] at htima
    rw [htov, if_neg Bool.false_ne_true] at hif
    obtain ⟨-, hlow⟩ := Bool.and_eq_true_iff.mp hedge
    exact ⟨htima, hif, by simpa using hlow⟩
  case reload =>
    obtain ⟨-, hsample, hoverflow, -, htima, hif, -⟩ := timerTickActions u hw
    simp only [htov, hprev, Bool.false_and] at *
    exact ⟨htima, hif, hoverflow⟩

/-! ### The mode machine (R400 to R402, R404) -/

theorem ppuStep_events (s : State) : (ppuStep s).events = (ppuAdvance { s with pcnt := s.pcnt + 1 }).events := by
  rw [ppuStep, lyAndCoincidence_record]

/-- Settles O21: mode and events are those of `ppuAdvance` on the advanced counter; a shade does not depend on it. -/
theorem ppuModeMachine : Obligations.PpuModeMachine := by
  unfold Obligations.PpuModeMachine
  intro s n t
  refine ⟨?mode, (ppuStep_events s).trans (ppuAdvance_events _)⟩
  case mode =>
    refine ((ppuStep_mode s).trans (ppuAdvance_mode _)).trans ?_
    cases s.pmode
    case hBlank =>
      by_cases hlast : s.ly + 1 = 144
      · simp [hlast, n]
      · simp [hlast, n]
    all_goals rfl

/-- Settles O22: the enable bit of each mode is the one `modeIrqEnabled` looks at. -/
theorem enteringAMode : Obligations.EnteringAMode := by
  unfold Obligations.EnteringAMode
  intro s m number enable hw hmode
  simp only [List.mem_cons, List.not_mem_nil, or_false, Prod.mk.injEq] at hmode
  obtain ⟨rfl, rfl, rfl⟩ | ⟨rfl, rfl, rfl⟩ | ⟨rfl, rfl, rfl⟩ | ⟨rfl, rfl, rfl⟩ := hmode
  all_goals
    exact ⟨enterMode_pmode _ s, enterMode_memRead hw _ addrSTAT, enterMode_memRead hw _ addrIF, enterMode_bytes _ s,
      enterMode_record _ s⟩

/-- Settles O23: each clause is a law of the model's function; the index need not be in its range. -/
theorem lyAndCoincidence_spec : Obligations.LyAndCoincidence := by
  unfold Obligations.LyAndCoincidence
  intro s hw _
  have hread := lyAndCoincidence_memRead hw
  exact ⟨hread addrLY, hread addrSTAT, hread addrIF, lyAndCoincidence_bytes s, lyAndCoincidence_record s⟩

/-! ### Entering v-blank (R404) -/

/-- The step that ends h-blank of line 143, before LY is written: the mode is entered, then VBLANK is requested. -/
theorem ppuAdvance_vBlankEntry {s : State} (hmode : s.pmode = .hBlank) (hpcnt : s.pcnt = 204) (hly : s.ly = 143) :
    ppuAdvance s =
      (requestInterrupt .vBlank (enterMode .vBlank { s with pcnt := 0, ly := 144 })).emit [.repaint] := by
  simp [ppuAdvance, hmode, hpcnt, hly]

/-- Entering v-blank leaves the two bits of STAT that the coincidence looks at. -/
theorem vBlankStat_bits : ∀ stat : Byte,
    (stat &&& 0xFC ||| PpuMode.vBlank.number).getLsbD 2 = stat.getLsbD 2 ∧
      (stat &&& 0xFC ||| PpuMode.vBlank.number).getLsbD 6 = stat.getLsbD 6 := by decide

/-- The bytes that step leaves, before LY is written. -/
theorem ppuAdvance_vBlankEntry_memRead {s : State} (hw : s.mem.wf = true) (hmode : s.pmode = .hBlank)
    (hpcnt : s.pcnt = 204) (hly : s.ly = 143) (x : Word) :
    (ppuAdvance s).memRead x =
      if x = addrIF then
        (if (s.memRead addrSTAT).getLsbD 4 then s.memRead addrIF ||| 0x02 else s.memRead addrIF) ||| 0x01
      else if x = addrSTAT then (s.memRead addrSTAT &&& 0xFC) ||| PpuMode.vBlank.number
      else s.memRead x := by
  have hw1 : (State.mem { s with pcnt := 0, ly := 144 }).wf = true := hw
  have henter := enterMode_memRead hw1 .vBlank
  have hrequest := requestInterrupt_memRead (enterMode_wf hw1 .vBlank) .vBlank x
  rw [ppuAdvance_vBlankEntry hmode hpcnt hly]
  refine hrequest.trans ?_
  rw [henter, henter]
  by_cases hif : x = addrIF
  · subst hif; rfl
  · simp [hif]; rfl

/-- LCD-STAT has one bit, whether entering v-blank, the coincidence or both request it. -/
theorem lcdStat_requests (v : Byte) (entry coincidence : Prop) [Decidable entry] [Decidable coincidence] :
    (if coincidence then ((if entry then v ||| 0x02 else v) ||| 0x01) ||| 0x02
      else (if entry then v ||| 0x02 else v) ||| 0x01) =
      v ||| 0x01 ||| (if entry ∨ coincidence then 0x02 else 0) := by
  by_cases he : entry <;> by_cases hc : coincidence <;> simp [he, hc, BitVec.or_assoc]

/-- IF after both halves of that step: two sources of LCD-STAT beside VBLANK. -/
theorem lyAndCoincidence_vBlankEntry_if {s : State} (hw : s.mem.wf = true) (hmode : s.pmode = .hBlank)
    (hpcnt : s.pcnt = 204) (hly : s.ly = 143) :
    (lyAndCoincidence (ppuAdvance s)).memRead addrIF = s.memRead addrIF ||| 0x01 |||
      (if (s.memRead addrSTAT).getLsbD 4 = true ∨ s.memRead addrLYC = 144 ∧ (s.memRead addrSTAT).getLsbD 2 = false ∧
          (s.memRead addrSTAT).getLsbD 6 = true then 0x02 else 0) := by
  have hread := ppuAdvance_vBlankEntry_memRead hw hmode hpcnt hly
  have hmatch : lyMatches (ppuAdvance s) ↔ s.memRead addrLYC = 144 := by
    have hlyc : (ppuAdvance s).memRead addrLYC = s.memRead addrLYC := hread addrLYC
    rw [lyMatches, hlyc, ppuAdvance_vBlankEntry hmode hpcnt hly, ← BitVec.toNat_inj, eq_comm]
    simp [State.emit]
  have hstat : (ppuAdvance s).memRead addrSTAT = s.memRead addrSTAT &&& 0xFC ||| PpuMode.vBlank.number := hread addrSTAT
  have hif : (ppuAdvance s).memRead addrIF =
      (if (s.memRead addrSTAT).getLsbD 4 then s.memRead addrIF ||| 0x02 else s.memRead addrIF) ||| 0x01 := hread addrIF
  obtain ⟨hbit2, hbit6⟩ := vBlankStat_bits (s.memRead addrSTAT)
  have hfinal : (lyAndCoincidence (ppuAdvance s)).memRead addrIF = _ :=
    lyAndCoincidence_memRead ((ppuAdvance_effect s).wf hw) addrIF
  rw [hstat, hbit2, hbit6, hif] at hfinal
  simp only [hmatch] at hfinal
  exact hfinal.trans (lcdStat_requests _ _ _)

/-- Settles O24: the mode and the event are `ppuModeMachine`, LY is `ppuStep_ly`, IF is the lemma before. -/
theorem vBlankEntry : Obligations.VBlankEntry := by
  unfold Obligations.VBlankEntry
  intro s hw hmode hly hpcnt stat t
  obtain ⟨hnext, hevents⟩ := ppuModeMachine s
  rw [hmode, hly, hpcnt] at hnext hevents
  obtain ⟨hmode', hly', hpcnt'⟩ : t.pmode = .vBlank ∧ t.ly = 144 ∧ t.pcnt = 0 := by simpa using hnext
  refine ⟨hmode', hly', hpcnt', by simpa using hevents, ?ly, ?irq⟩
  case ly => exact (ppuStep_ly hw).trans (by rw [hly']; rfl)
  case irq =>
    have hadvanced : s.pcnt + 1 = 204 := by rw [hpcnt]
    exact lyAndCoincidence_vBlankEntry_if (s := { s with pcnt := s.pcnt + 1 }) hw hmode hadvanced hly

/-! ### The scanline renderer over the integers (R405) -/

/-- World coordinates wrap at 256. -/
theorem worldCoordinate_toNat (x : Nat) (scroll : Byte) :
    (BitVec.ofNat 8 x + scroll).toNat = (x + scroll.toNat) % 256 := by
  rw [BitVec.toNat_add, BitVec.toNat_ofNat, Nat.mod_add_mod]

/-- The address of a byte of the tile map. -/
theorem mapAddress_eq (second : Bool) (row col : Nat) :
    (if second then (0x9C00 : Word) else 0x9800) + BitVec.ofNat 16 (row * 32 + col) =
      BitVec.ofNat 16 ((if second then 0x9C00 else 0x9800) + row * 32 + col) := by
  cases second <;> simp [Nat.add_assoc, BitVec.ofNat_add]

/-- The tile's address with its index unsigned from 0x8000 or signed from 0x9000. -/
theorem tileAddress_eq_ofInt (lcdc idx : Byte) :
    tileAddress lcdc idx =
      BitVec.ofInt 16 (if lcdc.getLsbD 4 then 0x8000 + idx.toNat * 16 else 0x9000 + idx.toInt * 16) := by
  have hunsigned : BitVec.ofInt 16 (idx.toNat : Int) = idx.zeroExtend 16 := by
    rw [BitVec.ofInt_natCast, BitVec.ofNat_toNat]
  have hsigned : BitVec.ofInt 16 idx.toInt = sext16 idx := rfl
  unfold tileAddress
  split
  · rw [BitVec.ofInt_add, BitVec.ofInt_mul, hunsigned]; rfl
  · rw [BitVec.ofInt_add, BitVec.ofInt_mul, hsigned]; rfl

/-- The two bytes of a row of a tile. -/
theorem tileRow_eq_ofInt (ta : Int) (row : Nat) :
    BitVec.ofInt 16 ta + BitVec.ofNat 16 (row * 2) = BitVec.ofInt 16 (ta + row * 2) := by
  rw [BitVec.ofInt_add, ← BitVec.ofInt_natCast, Nat.cast_mul]; rfl

/-- The second byte of a row follows the first. -/
theorem ofInt_add_one (a : Int) : BitVec.ofInt 16 a + 1 = BitVec.ofInt 16 (a + 1) := (BitVec.ofInt_add a 1).symm

theorem getLsbD_toNat (v : Byte) (i : Nat) : (v.getLsbD i).toNat = v.toNat / 2 ^ i % 2 := Nat.toNat_testBit v.toNat i

/-- Two bits of the palette. -/
theorem paletteShade_eq (bgp : Byte) (i : Nat) : bgp.extractLsb' i 2 = BitVec.ofNat 2 (bgp.toNat / 2 ^ i % 4) := by
  apply BitVec.eq_of_toNat_eq
  simp [Nat.shiftRight_eq_div_pow]

/-- Settles O25: each part of the formula of `pixelShade` is its integer; no part needs the line to be visible. -/
theorem scanlinePixels : Obligations.ScanlinePixels := by
  unfold Obligations.ScanlinePixels
  intro s y _ lcdc shade
  have hshade (x : Nat) : pixelShade s y x = BitVec.ofNat 2 (shade x) := by
    simp only [pixelShade, worldCoordinate_toNat, mapAddress_eq, tileAddress_eq_ofInt, tileRow_eq_ofInt, ofInt_add_one,
      getLsbD_toNat, paletteShade_eq]
    exact (apply_ite (BitVec.ofNat 2) _ _ 0).symm
  rw [renderScanline, State.emit]
  simp only [hshade]

/-! ### A frame (R403, R407) -/

/-- Where the PPU stands: the mode, the scanline index and the counter. -/
abbrev PpuPosition := PpuMode × Nat × Nat

def State.ppuPosition (s : State) : PpuPosition := (s.pmode, s.ly, s.pcnt)

/-- The position one tick later (R400). -/
def PpuPosition.next : PpuPosition → PpuPosition
  | (.oamScan, y, n) => if n + 1 = 80 then (.pixelTransfer, y, 0) else (.oamScan, y, n + 1)
  | (.pixelTransfer, y, n) => if n + 1 = 172 then (.hBlank, y, 0) else (.pixelTransfer, y, n + 1)
  | (.hBlank, y, n) =>
    if n + 1 = 204 then (if y + 1 = 144 then (.vBlank, 144, 0) else (.oamScan, y + 1, 0)) else (.hBlank, y, n + 1)
  | (.vBlank, y, n) =>
    if n + 1 = 4560 then (.oamScan, 0, 0)
    else if (n + 1) % 456 = 0 then (.vBlank, y + 1, n + 1) else (.vBlank, y, n + 1)

/-- The pixels of a scanline, with the shades that memory gives them (R405). -/
def scanlineEvents (s : State) (y : Nat) : List DisplayEvent :=
  (List.range 160).map fun x => .setPixel x y (pixelShade s y x)

/-- What the tick from a position emits, if memory has the picture that it has in `s`. -/
def PpuPosition.emits (s : State) : PpuPosition → List DisplayEvent
  | (.pixelTransfer, y, n) => if n + 1 = 172 then scanlineEvents s y else []
  | (.hBlank, y, n) => if n + 1 = 204 ∧ y + 1 = 144 then [.repaint] else []
  | _ => []

/-- A tick moves the PPU on; the timer's part of it leaves the position and the picture alone. -/
theorem tick_ppuPosition (t : State) :
    (tick t).ppuPosition = t.ppuPosition.next ∧ (tick t).events = t.events ++ t.ppuPosition.emits t := by
  obtain ⟨hmode, hly, hpcnt, hevents⟩ := timerTick_ppu t
  obtain ⟨hnext, hemitted⟩ := ppuModeMachine (timerTick t)
  have hbytes : SameBytesExcept deviceBytes t (timerTick t) := (timerTick_bytes t).mono (by simp [deviceBytes])
  simp only [hmode, hly, hpcnt, hevents, pixelShade_congr hbytes] at hnext hemitted
  refine ⟨hnext.trans ?next, hemitted.trans (congrArg (t.events ++ ·) ?emits)⟩
  case next => rw [State.ppuPosition]; cases t.pmode <;> rfl
  case emits => rw [State.ppuPosition]; cases t.pmode <;> simp [PpuPosition.emits, scanlineEvents]

/-- `t` is reached in the frame that began in `s`: where the PPU stands, what has been emitted since, and that the
picture in memory is that of `s`. -/
structure InFrame (s t : State) (position : PpuPosition) (emitted : List DisplayEvent) : Prop where
  position : t.ppuPosition = position
  events : t.events = s.events ++ emitted
  bytes : SameBytesExcept deviceBytes s t

section

variable {s t : State} {p : PpuPosition} {m : PpuMode} {y n : Nat} {evs : List DisplayEvent}

theorem PpuPosition.emits_congr (h : SameBytesExcept deviceBytes s t) (p : PpuPosition) : p.emits t = p.emits s := by
  unfold PpuPosition.emits scanlineEvents
  simp only [pixelShade_congr h]

theorem InFrame.fields (h : InFrame s t (m, y, n) evs) : t.pmode = m ∧ t.ly = y ∧ t.pcnt = n := by
  simpa only [State.ppuPosition, Prod.mk.injEq] using h.position

theorem InFrame.next (h : InFrame s t p evs) : InFrame s (tick t) p.next (evs ++ p.emits s) := by
  obtain ⟨hnext, hevents⟩ := tick_ppuPosition t
  obtain ⟨rfl, hemitted, hbytes⟩ := h
  refine ⟨hnext, ?_, hbytes.trans (tick_bytes t)⟩
  rw [hevents, hemitted, PpuPosition.emits_congr hbytes, List.append_assoc]

/-- The ticks from entering a mode to leaving it (R403). -/
def PpuMode.duration : PpuMode → Nat
  | .oamScan => 80
  | .pixelTransfer => 172
  | .hBlank => 204
  | .vBlank => 4560

/-- Before the last tick of a mode of a visible line only the counter moves. -/
theorem PpuPosition.next_of_lt (s : State) (hm : m ≠ .vBlank) (h : n + 1 < m.duration) :
    PpuPosition.next (m, y, n) = (m, y, n + 1) ∧ PpuPosition.emits s (m, y, n) = [] := by
  cases m
  case vBlank => exact absurd rfl hm
  all_goals
    simp only [PpuMode.duration] at h
    have hne := h.ne
    simp [PpuPosition.next, PpuPosition.emits, hne]

/-- Within a mode of a visible line the counter counts the ticks. -/
theorem InFrame.wait (h : InFrame s t (m, y, 0) evs) (hm : m ≠ .vBlank) :
    ∀ n < m.duration, InFrame s (forwardTicks n t) (m, y, n) evs
  | 0, _ => h
  | n + 1, hn => by
    obtain ⟨hnext, hemits⟩ := PpuPosition.next_of_lt (y := y) s hm hn
    have htick := (h.wait hm n (by omega)).next
    rwa [hnext, hemits, List.append_nil, ← forwardTicks_succ] at htick

/-- A whole mode of a visible line, to the position after its last tick. -/
theorem InFrame.mode (h : InFrame s t (m, y, 0) evs) (hm : m ≠ .vBlank) :
    InFrame s (forwardTicks m.duration t) (PpuPosition.next (m, y, m.duration - 1))
      (evs ++ PpuPosition.emits s (m, y, m.duration - 1)) := by
  have hpos : m.duration - 1 + 1 = m.duration := by cases m <;> rfl
  have htick := (h.wait hm (m.duration - 1) (by omega)).next
  rwa [← forwardTicks_succ, hpos] at htick

/-- A visible line: 80 ticks of OAM-scan, 172 of pixel-transfer and 204 of h-blank (R403). -/
theorem InFrame.line (h : InFrame s t (.oamScan, y, 0) evs) :
    InFrame s (forwardTicks 456 t) (PpuPosition.next (.hBlank, y, 203))
      (evs ++ scanlineEvents s y ++ PpuPosition.emits s (.hBlank, y, 203)) := by
  have hscan : InFrame s (forwardTicks 80 t) (.pixelTransfer, y, 0) (evs ++ []) := h.mode (by decide)
  have htransfer : InFrame s (forwardTicks 172 (forwardTicks 80 t)) (.hBlank, y, 0) (evs ++ [] ++ scanlineEvents s y) :=
    hscan.mode (by decide)
  have hblank := htransfer.mode (by decide)
  rw [List.append_nil] at hblank
  rwa [show 456 = 80 + 172 + 204 from rfl, forwardTicks_add, forwardTicks_add]

/-- The first `y` lines. -/
theorem InFrame.lines (h : InFrame s s (.oamScan, 0, 0) []) :
    ∀ y < 144, InFrame s (forwardTicks (456 * y) s) (.oamScan, y, 0) ((List.range y).flatMap (scanlineEvents s))
  | 0, _ => h
  | y + 1, hy => by
    have hline := (h.lines y (by omega)).line
    have hnext : PpuPosition.next (.hBlank, y, 203) = (.oamScan, y + 1, 0) := by
      simp [PpuPosition.next, hy.ne]
    have hemits : PpuPosition.emits s (.hBlank, y, 203) = [] := by simp [PpuPosition.emits, hy.ne]
    rw [hnext, hemits, List.append_nil, ← forwardTicks_add] at hline
    rw [List.range_succ, List.flatMap_append, List.flatMap_singleton]
    exact hline

/-- All 144 lines: the last one ends with v-blank entered and the one Repaint of the frame. -/
theorem InFrame.vBlankStart (h : InFrame s s (.oamScan, 0, 0) []) :
    InFrame s (forwardTicks 65664 s) (.vBlank, 144, 0) ((List.range 144).flatMap (scanlineEvents s) ++ [.repaint]) := by
  have hline := (h.lines 143 (by decide)).line
  have hticks : 456 * 143 + 456 = 65664 := rfl
  rw [← forwardTicks_add, hticks] at hline
  rw [List.range_succ, List.flatMap_append, List.flatMap_singleton]
  exact hline

/-- In v-blank the index moves every 456 ticks and nothing is emitted. -/
theorem InFrame.vBlank (h : InFrame s t (.vBlank, 144, 0) evs) :
    ∀ n < 4560, InFrame s (forwardTicks n t) (.vBlank, 144 + n / 456, n) evs
  | 0, _ => h
  | n + 1, hn => by
    have htick := (h.vBlank n (by omega)).next
    have hnext : PpuPosition.next (.vBlank, 144 + n / 456, n) = (.vBlank, 144 + (n + 1) / 456, n + 1) := by
      rw [PpuPosition.next, if_neg hn.ne]
      split
      · rw [show (n + 1) / 456 = n / 456 + 1 by omega, Nat.add_assoc]
      · rw [show (n + 1) / 456 = n / 456 by omega]
    rw [hnext, ← forwardTicks_succ] at htick
    exact List.append_nil evs ▸ htick

/-- The last tick of v-blank starts the next frame. -/
theorem InFrame.frameEnd (h : InFrame s t (.vBlank, 144, 0) evs) :
    InFrame s (forwardTicks 4560 t) (.oamScan, 0, 0) evs := by
  have htick := (h.vBlank 4559 (by decide)).next
  have hticks : 4559 + 1 = 4560 := rfl
  rw [← forwardTicks_succ, hticks] at htick
  exact List.append_nil evs ▸ htick

end

/-- Settles O26: 144 lines of 456 ticks (`InFrame.line`) and then the 4560 of v-blank. -/
theorem frameTakes70224Ticks : Obligations.FrameTakes70224Ticks := by
  unfold Obligations.FrameTakes70224Ticks
  intro s hmode hly hpcnt
  have hstart : InFrame s s (.oamScan, 0, 0) [] :=
    ⟨by rw [State.ppuPosition, hmode, hly, hpcnt], (List.append_nil _).symm, .ofMem rfl _⟩
  have hblank := hstart.vBlankStart
  have hend := hblank.frameEnd
  have hticks : 65664 + 4560 = 70224 := rfl
  rw [← forwardTicks_add, hticks] at hend
  exact ⟨hblank.fields, hend.fields, hblank.events.trans (List.append_assoc ..).symm,
    hend.events.trans hblank.events.symm⟩

end Sys2Proof.Machine

/-! SUPPORT. Proofs of the statements about reset, the invariants and the costs (70_reset_and_hazards.md). What a Step can do
is said in Laws/Step.lean and Laws/Effects.lean, what a tick keeps in Laws/Ticks.lean and Laws/Devices.lean. What is added
here is the effect of the CPU part of a Step as a whole, the invariant part by part, the mirrors that a tick leaves, and the
cost of an instruction by the table. -/

namespace Sys2Proof.Machine

/-! ### What the CPU part of a Step does to the rest of the machine -/

theorem CpuEffect.wake (s : State) : CpuEffect s (wake s) := by
  rw [wake_eq]
  exact .ofRegs rfl rfl rfl rfl id

theorem CpuEffect.fetchAdvance (s : State) : CpuEffect s (fetchAdvance s) := .ofRegs rfl rfl rfl rfl id

/-- An effect of the CPU keeps the fault, so it may be said of the state with that fault put back. -/
theorem CpuEffect.exceptFault {s t : State} (h : CpuEffect s t) : CpuEffect s { t with fault := s.fault } := by
  rw [← h.fault]
  exact h

/-- An instruction is an effect of the CPU, but for the fault that an undefined byte records. -/
theorem exec_effect {i : Instr} {s t : State} (h : exec i s = .next t) : CpuEffect s { t with fault := s.fault } := by
  rcases exec_next i s with ⟨u, hu, heffect, -⟩ | ⟨op, -, hfault⟩
  · cases hu.symm.trans h
    exact heffect.exceptFault
  · cases hfault.symm.trans h
    exact .refl s

/-- So is the whole CPU part of a Step. -/
theorem CpuPart.effect {s t : State} (h : CpuPart s t) : CpuEffect s { t with fault := s.fault } := by
  cases h with
  | dispatch => exact ((CpuEffect.wake s).trans (.dispatchInterrupt ..)).exceptFault
  | idle => exact ((CpuEffect.wake s).trans (.spend ..)).exceptFault
  | ran _ _ u hu =>
    have hran := ((CpuEffect.wake s).trans (.fetchAdvance _)).trans (exec_effect hu)
    rw [promoteEi_eq]
    exact hran.trans (.ofRegs rfl rfl rfl (wake_fault s).symm id)

/-! ### The invariant (R442 (a) to (d)) -/

/-- The ranges of the PPU depend on its mode, index and counter only. -/
theorem State.PpuInRange.congr {s t : State} (h : s.PpuInRange) (hmode : t.pmode = s.pmode) (hly : t.ly = s.ly)
    (hpcnt : t.pcnt = s.pcnt) : t.PpuInRange := by
  unfold State.PpuInRange at *
  rwa [hmode, hly, hpcnt]

theorem CpuPart.inv {s t : State} (h : CpuPart s t) (hs : s.Inv) : t.Inv := by
  obtain ⟨hdevices, hwf, -, hflags, -, -⟩ := h.effect
  refine ⟨hflags hs.flags, ?ppu, ?timer, hwf hs.mem⟩
  case ppu =>
    exact hs.ppu.congr (congrArg Devices.pmode hdevices) (congrArg Devices.ly hdevices) (congrArg Devices.pcnt hdevices)
  case timer =>
    have htov : t.tov = s.tov := congrArg Devices.tov hdevices
    have htprev : t.tprev = s.tprev := congrArg Devices.tprev hdevices
    rw [State.TimerConsistent, htov, htprev]
    exact hs.timer

/-- Each device keeps its own part whatever the other did, and neither touches F. -/
theorem tick_inv {s : State} (hs : s.Inv) : (tick s).Inv := by
  have heffect := tick_effect s
  refine ⟨?flags, ?ppu, ?timer, heffect.wf hs.mem⟩
  case flags =>
    have hf : (tick s).f = s.f := congrArg Cpu.f heffect.cpu
    rw [State.FlagsClean, hf]
    exact hs.flags
  case ppu =>
    obtain ⟨hmode, hly, hpcnt, -⟩ := timerTick_ppu s
    exact ppuStep_inRange (hs.ppu.congr hmode hly hpcnt)
  case timer =>
    obtain ⟨-, htov, htprev⟩ := ppuStep_timer (timerTick s)
    rw [State.TimerConsistent, tick, htov, htprev]
    exact timerTick_consistent s

/-- Settles O15: a stuck machine stays as it is; else the CPU part keeps the invariant, and so does every tick after it. -/
theorem stepKeepsInvariant : Obligations.StepKeepsInvariant := by
  unfold Obligations.StepKeepsInvariant
  intro s t hs hstep
  obtain ⟨-, hstuck⟩ | ⟨u, -, -, hpart, hticks⟩ := step_cases s
  · cases hstuck.symm.trans hstep
    exact hs
  · cases hticks.symm.trans hstep
    exact forwardTicks_induction (P := State.Inv) (fun _ => tick_inv) _ (hpart.inv hs)

/-- F after reset is the low byte of RESET_AF, and its low nibble is that word's (10_state.md R60). -/
theorem powerOn_flagsClean {cfg : Config} (h : cfg.WellFormed) : (State.powerOn cfg).FlagsClean :=
  calc cfg.resetAf.extractLsb' 0 8 &&& (0x000F : Word).extractLsb' 0 8
    _ = (cfg.resetAf &&& 0x000F).extractLsb' 0 8 := BitVec.extractLsb'_and.symm
    _ = 0 := by rw [h]; rfl

theorem powerOn_inv {cfg : Config} (h : cfg.WellFormed) : (State.powerOn cfg).Inv :=
  ⟨powerOn_flagsClean h, ⟨Nat.succ_pos 143, Nat.succ_pos 79⟩, fun hlatched => absurd hlatched Bool.false_ne_true, rfl⟩

/-- Settles O16: an image is placed in an empty memory, which is canonical; the rest of the state is `State.powerOn`. -/
theorem resetMeetsInvariant : Obligations.ResetMeetsInvariant := by
  unfold Obligations.ResetMeetsInvariant
  refine ⟨powerOn_inv (by decide), fun cfg rom s hcfg hreset => ?_⟩
  rcases Nat.lt_or_ge romCapacity rom.length with hlong | hfits
  · cases (hostReset_of_lt cfg hlong).symm.trans hreset
  · cases (hostReset_of_le cfg hfits).symm.trans hreset
    obtain ⟨hflags, hppu, htimer, -⟩ := powerOn_inv hcfg
    exact ⟨hflags, hppu, htimer, Memory.wf_place rfl 0x0000 rom⟩

/-! ### Protected bytes (R442 (f)) -/

/-- Settles O17: no bus write of the CPU part or of a tick reaches a protected byte. -/
theorem protectedBytesNeverChange : Obligations.ProtectedBytesNeverChange := by
  unfold Obligations.ProtectedBytesNeverChange
  intro cfg s t x hstep hx
  have hprotected := (writeProtected_iff x).mpr hx
  obtain ⟨-, hstuck⟩ | ⟨u, -, -, hpart, hticks⟩ := stepWith_cases cfg s
  · cases hstuck.symm.trans hstep
    rfl
  · cases hticks.symm.trans hstep
    exact ((forwardTicks_effect _ u).rom x hprotected).trans (hpart.effect.rom x hprotected)

/-! ### The mirrors of LY and DIV (R442 (e)) -/

/-- What a tick leaves in LY and DIV: the PPU writes LY last, and keeps the DIV and the counter that the timer left. -/
theorem tick_mirrors {s : State} (hw : s.mem.wf = true) :
    (tick s).memRead addrLY = BitVec.ofNat 8 (tick s).ly ∧ (tick s).memRead addrDIV = hiByte (tick s).tcount := by
  refine ⟨ppuStep_ly ((timerTick_effect s).wf hw), ?div⟩
  case div =>
    have hkept : (tick s).memRead addrDIV = (timerTick s).memRead addrDIV := ppuStep_bytes _ addrDIV (by decide)
    have htcount : (tick s).tcount = (timerTick s).tcount := (ppuStep_timer _).1
    rw [hkept, htcount, timerTick_div hw]

/-- Settles O18: a Step that added to `cycles` forwarded a tick, and the last one leaves the mirrors. -/
theorem lyAndDivMirrorTheDevices : Obligations.LyAndDivMirrorTheDevices := by
  unfold Obligations.LyAndDivMirrorTheDevices
  intro cfg s t hw hrate hstep hcycles
  obtain ⟨-, hstuck⟩ | ⟨u, -, -, hpart, hticks⟩ := stepWith_cases cfg s
  · cases hstuck.symm.trans hstep
    exact absurd rfl hcycles
  · cases hticks.symm.trans hstep
    have hkept (n : Nat) : (forwardTicks n u).cycles = u.cycles := congrArg Cpu.cycles (forwardTicks_effect n u).cpu
    rw [hkept] at hcycles
    have hspent : 0 < u.cycles - s.cycles := Nat.sub_pos_of_lt (lt_of_le_of_ne hpart.effect.cycles hcycles.symm)
    obtain ⟨n, hn⟩ := Nat.exists_eq_add_one.mpr (Nat.mul_pos hspent hrate)
    rw [hn, forwardTicks_succ]
    exact tick_mirrors ((forwardTicks_effect n u).wf (hpart.effect.wf hw))

/-! ### Costs (R446) -/

/-- A conditional transfer costs what the way it goes costs. -/
theorem cycles_of_branch {taken : Bool} {m n : Nat} {s t u v : State}
    (h : (if taken then done m u else done n v) = .next t) (hu : u.cycles = s.cycles) (hv : v.cycles = s.cycles) :
    t.cycles = s.cycles + if taken then m else n := by
  cases taken
  case true => cases h; exact congrArg (· + m) hu
  case false => cases h; exact congrArg (· + n) hv

/-- Every instruction adds the cost that the table gives it: its meaning ends in `done` with that cost, of a state whose
updates all keep `cycles`; an undefined byte adds nothing. -/
theorem exec_cycles {i : Instr} {s t : State} (hi : i.wellFormed = true) (h : exec i s = .next t) :
    t.cycles = s.cycles + i.cost s.cond := by
  cases i
  case prefixCB => cases hi
  case jpCc | jrCc | retCc => exact cycles_of_branch h rfl rfl
  case callCc => exact cycles_of_branch h (State.push16_cycles ..) rfl
  all_goals
    obtain rfl := Host.Outcome.next.inj h
    simp [Instr.cost, State.callTo, State.returnPop, State.jumpRelative, State.setAtHl, State.storeA, State.loadA,
      State.memWriteWord, State.setSpFlags, testBit, returnFromInterrupt]

theorem fetchInstr_wake (s : State) : fetchInstr (wake s) = fetchInstr s := by rw [wake_eq]; rfl

theorem cond_fetchAdvance_wake (s : State) : (fetchAdvance (wake s)).cond = s.cond := by rw [wake_eq]; rfl

/-- The wake leaves a core halted if nothing enabled is pending. -/
theorem wake_halted_iff (s : State) : (wake s).halted = true ↔ s.halted = true ∧ pendingEnabled s = 0 := by
  by_cases hpending : pendingEnabled s = 0
  · simp [wake_of_none hpending, hpending]
  · rw [wake_of_pending fun _ => hpending]
    exact ⟨fun h => absurd h Bool.false_ne_true, fun h => absurd h.2 hpending⟩

theorem CpuPart.cycles {s t : State} (h : CpuPart s t) :
    t.cycles = s.cycles +
      if s.ime = true ∧ pendingEnabled s ≠ 0 then 5
      else if s.halted = true ∧ pendingEnabled s = 0 then 1
      else (fetchInstr s).cost s.cond := by
  cases h with
  | dispatch hime hpending => rw [if_pos ⟨hime, hpending⟩, dispatchInterrupt_eq, wake_cycles]
  | idle hnone hhalted => rw [if_neg hnone, if_pos ((wake_halted_iff s).mp hhalted), State.spend_cycles, wake_cycles]
  | ran hnone hawake u hu =>
    have hrunning : ¬ (s.halted = true ∧ pendingEnabled s = 0) := by
      rw [← wake_halted_iff, hawake]
      exact Bool.false_ne_true
    have hcost := exec_cycles (fetchInstr_wellFormed _) hu
    rw [fetchInstr_wake, cond_fetchAdvance_wake] at hcost
    rw [if_neg hnone, if_neg hrunning, promoteEi_cycles, hcost]
    exact congrArg (· + _) (wake_cycles s)

/-- Settles O13: the cost of a Step is that of its CPU part, since ticks do not touch `cycles`. -/
theorem stepCosts : Obligations.StepCosts := by
  unfold Obligations.StepCosts
  intro cfg s t hstuck hstep
  obtain ⟨u, hpart, hcpu⟩ := cpuPart_of_stepWith hstuck hstep
  have hcycles : t.cycles = u.cycles := congrArg Cpu.cycles hcpu
  rw [hcycles, hpart.cycles]

end Sys2Proof.Machine
